-- ==== Sys2Proof/Word.lean ====
section
/-! DEFINITION. The word types of the XMOD core (10_state.md rule R20); their arithmetic is that of `BitVec`. -/

namespace Sys2Proof

/-- A byte of the wire or of the buffer (00_scope.md R7). -/
abbrev Byte := BitVec 8

/-- The 16-bit words of `CRC` and `RXCRC` (10_state.md R23, R24). -/
abbrev Word16 := BitVec 16

end Sys2Proof
end

