-- ==== Sys2Proof/Config.lean ====
section
/-! DEFINITION. What is fixed for the machine: the constants of 00_scope.md rule R5 and 10_state.md rule R31, the control codes of
30_encoding.md rule R70, and the two parameters of 00_scope.md rule R6 to which the spec gives one value. The parameters a launch sets to a value of its own, `CURW`
and `UL_TIMEOUT_COUNTS`, stand in State. -/

namespace Sys2Proof

/-- The default of `CURW`, the width of the cursor and of offset arithmetic (R6, 92_eei_decisions.md D3; log entry 1). -/
def Config.curwDefault : Nat := 16

/-- `PAYLOAD` (R5). -/
def Config.payload : Nat := 128

/-- `FRAME` (R5; 90_conflicts.md C1: 133, not 132). -/
def Config.frameLength : Nat := 133

/-- `MAX_RETRY` (R5). -/
def Config.maxRetry : Nat := 15

/-- `TIMEOUT_MS` (R5). -/
def Config.timeoutMs : Nat := 1000

/-- `POLY` (R5). -/
def Config.crcPoly : Word16 := 0x1021#16

/-- `CRC_INIT` (R5, 40_crc.md R91; 90_conflicts.md C2: 0, not 0xFFFF). -/
def Config.crcInit : Word16 := 0x0000#16

/-- `RESET_TIMER_ON_TIMEOUT`: fixed true (92_eei_decisions.md D11). -/
def Config.resetTimerOnTimeout : Bool := true

/-- `RETRY_RESET_ON_BYTE`: false for this hardware (92_eei_decisions.md D13, 90_conflicts.md C6). -/
def Config.retryResetOnByte : Bool := false

/-- What a byte of the buffer that no cell lists reads as. DESIGN CHOICE (log entry 3): the spec makes the contents a launch input. -/
def Config.unlistedByte : Byte := 0x00#8

/-- start-of-block (R70). -/
def Config.soh : Byte := 0x01#8
/-- end-of-transmission (R70). -/
def Config.eot : Byte := 0x04#8
/-- acknowledge (R70). -/
def Config.ack : Byte := 0x06#8
/-- negative-acknowledge (R70). -/
def Config.nak : Byte := 0x15#8
/-- end-of-transmission-block (R70). -/
def Config.etb : Byte := 0x17#8
/-- cancel, "defined but unused in transitions" (R70). -/
def Config.can : Byte := 0x18#8
/-- the handshake byte, ASCII `C` (R70, R71). -/
def Config.handshake : Byte := 0x43#8

end Sys2Proof
end

