-- ==== Sys2Proof/Syntax.lean ====
section
/-! DEFINITION. The names the decoder works with (30_encoding.md rules R76, R77), the selectors of rule R79 and the operations:
one constructor of `Instr` for each of the 25 rows of spec/opcode_table.json. -/

namespace Sys2Proof

/-- The values of `STATE`, in the spec's order (30_encoding.md R76). -/
inductive SeqState where
  | await
  | block
  | block2
  | run
  | crc1
  | crc2
  | abort
  | ended
  deriving DecidableEq, Repr

/-- The values of `ROLE` (30_encoding.md R77); code 3 is never produced and cannot be expressed (93_implementation_defined.md U10). -/
inductive Role where
  | none
  | dl
  | ul
  deriving DecidableEq, Repr

/-- The host's commands (00_scope.md R10, R14). A start command carries whatever capacity the host names: which are legal depends on the
launch's `CURW` and is the command's own test. -/
inductive HostCmd where
  | reset
  | startDl (cap : Nat)
  | startUl (cap : Nat)
  deriving DecidableEq, Repr

/-- What asks for an operation, beside `ROLE` and `STATE`: the rest of the "Selected by" column of 30_encoding.md R79. -/
inductive Event where
  /-- a host command -/
  | host (c : HostCmd)
  /-- the block's own turn (`POLL` or `DRAIN`), with its one sample of `byteAvailable()` (43_session_timeout.md R142) -/
  | turn (byteAvailable : Bool)
  /-- an inbound byte handed to `HandleByte` or `UploadByte` -/
  | byte (b : Byte)
  /-- an internal call of `CrcUpdate` -/
  | callCrcUpdate (acc : Word16) (b : Byte)
  /-- an internal call of `SendBlock` -/
  | callSendBlock (n : Byte)
  /-- the last action of both idle operations -/
  | callRetryCheck
  /-- the last action of a `POLL` that made `STATE = END` -/
  | callSessionEnd
  deriving DecidableEq, Repr

/-- What the block decodes: it has no instruction words, an operation is selected by role, state and event (30_encoding.md R79). -/
structure Selector where
  role  : Role
  seq   : SeqState
  event : Event
  deriving DecidableEq, Repr

/-- The 25 operations of 30_encoding.md R79, a constructor for each row of spec/opcode_table.json. -/
inductive Instr where
  /-- `CRC.UPDATE` (40_crc.md R90) -/
  | crcUpdate (acc : Word16) (b : Byte)
  /-- `RX.AWAIT.SOH` (41_receive.md R101) -/
  | rxAwaitSoh
  /-- `RX.AWAIT.EOT` (R102) -/
  | rxAwaitEot
  /-- `RX.AWAIT.ETB` (R103) -/
  | rxAwaitEtb
  /-- `RX.AWAIT.OTHER` (R104) -/
  | rxAwaitOther (b : Byte)
  /-- `RX.BLOCK` (R105) -/
  | rxBlock (b : Byte)
  /-- `RX.BLOCK2` (R106) -/
  | rxBlock2 (b : Byte)
  /-- `RX.RUN` (R107) -/
  | rxRun (b : Byte)
  /-- `RX.CRC1` (R108) -/
  | rxCrc1 (b : Byte)
  /-- `RX.CRC2` (R109) -/
  | rxCrc2 (b : Byte)
  /-- `RX.TERMINAL` (R110) -/
  | rxTerminal (b : Byte)
  /-- `TX.SENDBLOCK` (42_transmit.md R120) -/
  | txSendBlock (n : Byte)
  /-- `UL.C` (R124) -/
  | ulC
  /-- `UL.ACK` (R125) -/
  | ulAck
  /-- `UL.OTHER` (R126) -/
  | ulOther (b : Byte)
  /-- `START.DL` (43_session_timeout.md R140) -/
  | startDl (cap : Nat)
  /-- `START.UL` (R141) -/
  | startUl (cap : Nat)
  /-- `POLL.DL.BYTE` (R143) -/
  | pollDlByte
  /-- `POLL.UL.BYTE` (R144) -/
  | pollUlByte
  /-- `POLL.DL.IDLE` (R145) -/
  | pollDlIdle
  /-- `POLL.UL.IDLE` (R147) -/
  | pollUlIdle
  /-- `RETRY.CHECK` (R148) -/
  | retryCheck
  /-- `SESSION.END` (R149) -/
  | sessionEnd
  /-- `DRAIN` (R150) -/
  | drain
  /-- `RESET` (70_reset_and_hazards.md R180) -/
  | reset
  deriving DecidableEq, Repr

end Sys2Proof
end

