-- ==== Sys2Proof/WellFormed.lean ====
section
/-! DEFINITION. Which operations are well formed: an "any other byte" row does not carry a byte that an exact row takes
(30_encoding.md rule R79: "the rows with a specific byte value take priority over the 'any other' row"). A start command's
capacity is no matter of form: an illegal one is refused by the command's meaning (43_session_timeout.md R140, R141). -/

namespace Sys2Proof

/-- The bytes `AWAIT` recognises (30_encoding.md R78). -/
def isAwaitCode (b : Byte) : Bool := b == Config.soh || b == Config.eot || b == Config.etb

/-- The bytes the upload recognises (30_encoding.md R80). -/
def isUploadCode (b : Byte) : Bool := b == Config.handshake || b == Config.ack

/-- The check of an operation's operands. -/
def Instr.wellFormed : Instr → Bool
  | .crcUpdate _ _ => true
  | .rxAwaitSoh => true
  | .rxAwaitEot => true
  | .rxAwaitEtb => true
  | .rxAwaitOther b => !isAwaitCode b
  | .rxBlock _ => true
  | .rxBlock2 _ => true
  | .rxRun _ => true
  | .rxCrc1 _ => true
  | .rxCrc2 _ => true
  | .rxTerminal _ => true
  | .txSendBlock _ => true
  | .ulC => true
  | .ulAck => true
  | .ulOther b => !isUploadCode b
  | .startDl _ => true
  | .startUl _ => true
  | .pollDlByte => true
  | .pollUlByte => true
  | .pollDlIdle => true
  | .pollUlIdle => true
  | .retryCheck => true
  | .sessionEnd => true
  | .drain => true
  | .reset => true

end Sys2Proof
end

