-- ==== Sys2Proof/Decode.lean ====
section
/-! DEFINITION. The decoder: which operation a selector names (30_encoding.md rule R79), total, rejecting by name; after it the
encoder, written from the same column; the codes of `STATE` and `ROLE`; and the bytes of a frame (rules R72, R73). -/

namespace Sys2Proof

/-- Why a selector or a list of bytes names no operation. -/
inductive Reject where
  /-- a turn or a byte while `ROLE = NONE`: no `POLL` and no `DRAIN` exists (00_scope.md R10) -/
  | noSession
  /-- a turn while `STATE = END`: a `POLL` is not enabled in a terminal state and the drain is for `ABORT` only (R10) -/
  | sessionOver
  /-- no byte to decode (60_exceptions.md R171) -/
  | noByte
  deriving DecidableEq, Repr

/-- The receive dispatch: `STATE` selects, and in `AWAIT` the byte's value (30_encoding.md R78, 41_receive.md R100). -/
def decodeReceive (seq : SeqState) (b : Byte) : Instr :=
  match seq with
  | .await =>
    if b = Config.soh then .rxAwaitSoh
    else if b = Config.eot then .rxAwaitEot
    else if b = Config.etb then .rxAwaitEtb
    else .rxAwaitOther b
  | .block => .rxBlock b
  | .block2 => .rxBlock2 b
  | .run => .rxRun b
  | .crc1 => .rxCrc1 b
  | .crc2 => .rxCrc2 b
  | .abort => .rxTerminal b
  | .ended => .rxTerminal b

/-- The upload dispatch: the byte's value alone (30_encoding.md R80, 42_transmit.md R123). -/
def decodeUpload (b : Byte) : Instr :=
  if b = Config.handshake then .ulC
  else if b = Config.ack then .ulAck
  else .ulOther b

/-- A host command names its operation in every role and state: a start during a session is refused by the operation
(43_session_timeout.md R140, R141), not by the decode. -/
def decodeHost : HostCmd → Instr
  | .reset => .reset
  | .startDl cap => .startDl cap
  | .startUl cap => .startUl cap

/-- The four operations of a `POLL` (43_session_timeout.md R142), for a role that is in a session. -/
def decodePoll (role : Role) (byteAvailable : Bool) : Except Reject Instr :=
  match role, byteAvailable with
  | .none, _ => .error .noSession
  | .dl, true => .ok .pollDlByte
  | .ul, true => .ok .pollUlByte
  | .dl, false => .ok .pollDlIdle
  | .ul, false => .ok .pollUlIdle

/-- The block's own turn: a `POLL` in a session that runs, a `DRAIN` after an abort (00_scope.md R10). -/
def decodeTurn (role : Role) (seq : SeqState) (byteAvailable : Bool) : Except Reject Instr :=
  if role = .none then .error .noSession
  else match seq with
    | .abort => .ok .drain
    | .ended => .error .sessionOver
    | .await => decodePoll role byteAvailable
    | .block => decodePoll role byteAvailable
    | .block2 => decodePoll role byteAvailable
    | .run => decodePoll role byteAvailable
    | .crc1 => decodePoll role byteAvailable
    | .crc2 => decodePoll role byteAvailable

/-- An inbound byte handed to the dispatch of the role. -/
def decodeByte (role : Role) (seq : SeqState) (b : Byte) : Except Reject Instr :=
  match role with
  | .none => .error .noSession
  | .dl => .ok (decodeReceive seq b)
  | .ul => .ok (decodeUpload b)

/-- The whole decode (30_encoding.md R79: the "Selected by" column "is the whole decode"). -/
def decode (x : Selector) : Except Reject Instr :=
  match x.event with
  | .host c => .ok (decodeHost c)
  | .turn byteAvailable => decodeTurn x.role x.seq byteAvailable
  | .byte b => decodeByte x.role x.seq b
  | .callCrcUpdate acc b => .ok (.crcUpdate acc b)
  | .callSendBlock n => .ok (.txSendBlock n)
  | .callRetryCheck => .ok .retryCheck
  | .callSessionEnd => .ok .sessionEnd

/-- The decode of the bytes on the line: total on any list, it takes one byte and gives the rest back (30_encoding.md R74). -/
def decodeWire (role : Role) (seq : SeqState) : List Byte → Except Reject (Instr × List Byte)
  | [] => .error .noByte
  | b :: rest => (decode ⟨role, seq, .byte b⟩).map (fun i => (i, rest))

/-- The role and state in which a bare byte of the opcode table is read, since the table's words do not carry them: the upload for
the two bytes only the upload recognises, else the download in `AWAIT` (log entry 6). -/
def tableContext (b : Byte) : Role × SeqState :=
  if isUploadCode b then (.ul, .await) else (.dl, .await)

/-- The operation the decoder reads from a word of the opcode table: one inbound byte (30_encoding.md R74). -/
def decodeTableWord (nbits w : Nat) : Option Instr :=
  if nbits = 8 then
    match decodeWire (tableContext (BitVec.ofNat 8 w)).1 (tableContext (BitVec.ofNat 8 w)).2 [BitVec.ofNat 8 w] with
    | .ok (i, _) => some i
    | .error _ => none
  else none

/-! ## The encoder -/

/-- The selector of an operation, from the "Selected by" column of 30_encoding.md R79. Where the column allows several roles,
states or samples, one of them. -/
def encode : Instr → Selector
  | .crcUpdate acc b => ⟨.dl, .run, .callCrcUpdate acc b⟩
  | .rxAwaitSoh => ⟨.dl, .await, .byte 0x01#8⟩
  | .rxAwaitEot => ⟨.dl, .await, .byte 0x04#8⟩
  | .rxAwaitEtb => ⟨.dl, .await, .byte 0x17#8⟩
  | .rxAwaitOther b => ⟨.dl, .await, .byte b⟩
  | .rxBlock b => ⟨.dl, .block, .byte b⟩
  | .rxBlock2 b => ⟨.dl, .block2, .byte b⟩
  | .rxRun b => ⟨.dl, .run, .byte b⟩
  | .rxCrc1 b => ⟨.dl, .crc1, .byte b⟩
  | .rxCrc2 b => ⟨.dl, .crc2, .byte b⟩
  | .rxTerminal b => ⟨.dl, .abort, .byte b⟩
  | .txSendBlock n => ⟨.ul, .await, .callSendBlock n⟩
  | .ulC => ⟨.ul, .await, .byte 0x43#8⟩
  | .ulAck => ⟨.ul, .await, .byte 0x06#8⟩
  | .ulOther b => ⟨.ul, .await, .byte b⟩
  | .startDl cap => ⟨.none, .await, .host (.startDl cap)⟩
  | .startUl cap => ⟨.none, .await, .host (.startUl cap)⟩
  | .pollDlByte => ⟨.dl, .await, .turn true⟩
  | .pollUlByte => ⟨.ul, .await, .turn true⟩
  | .pollDlIdle => ⟨.dl, .await, .turn false⟩
  | .pollUlIdle => ⟨.ul, .await, .turn false⟩
  | .retryCheck => ⟨.dl, .await, .callRetryCheck⟩
  | .sessionEnd => ⟨.dl, .ended, .callSessionEnd⟩
  | .drain => ⟨.dl, .abort, .turn true⟩
  | .reset => ⟨.none, .await, .host .reset⟩

/-! ## Codes of the enumerated registers -/

/-- The 3-bit code of `STATE` (30_encoding.md R76). -/
def seqCode : SeqState → BitVec 3
  | .await => 0#3
  | .block => 1#3
  | .block2 => 2#3
  | .run => 3#3
  | .crc1 => 4#3
  | .crc2 => 5#3
  | .abort => 6#3
  | .ended => 7#3

/-- The state of a 3-bit code: "All eight `STATE` codes are used" (93_implementation_defined.md U10). -/
def seqOfCode (c : BitVec 3) : SeqState :=
  if c = 0#3 then .await
  else if c = 1#3 then .block
  else if c = 2#3 then .block2
  else if c = 3#3 then .run
  else if c = 4#3 then .crc1
  else if c = 5#3 then .crc2
  else if c = 6#3 then .abort
  else .ended

/-- The 2-bit code of `ROLE` (30_encoding.md R77). -/
def roleCode : Role → BitVec 2
  | .none => 0#2
  | .dl => 1#2
  | .ul => 2#2

/-- The role of a 2-bit code; code 3 is unused (30_encoding.md R77). -/
def roleOfCode (c : BitVec 2) : Option Role :=
  if c = 0#2 then some .none
  else if c = 1#2 then some .dl
  else if c = 2#2 then some .ul
  else none

/-! ## Frames -/

/-- `hi ++ lo`: concatenation with `hi` in the high bits (00_scope.md R7); a received CRC is `hi ++ lo` (30_encoding.md R73). -/
def joinOctets (hi lo : Byte) : Word16 := hi ++ lo

/-- Bits 15:8 of a 16-bit word (30_encoding.md R73). -/
def highOctet (w : Word16) : Byte := w.extractLsb' 8 8

/-- Bits 7:0 of a 16-bit word (30_encoding.md R73). -/
def lowOctet (w : Word16) : Byte := w.extractLsb' 0 8

/-- `cmpl(n) = 0xFF - n` (30_encoding.md R73). -/
def complement (n : Byte) : Byte := 0xFF#8 - n

/-- The bytes of a frame in wire order: marker, number, complement, payload, CRC high octet, CRC low octet (30_encoding.md R72;
133 bytes when the payload has 128: 90_conflicts.md C1). -/
def frameBytes (n : Byte) (payload : List Byte) (crc : Word16) : List Byte :=
  Config.soh :: n :: complement n :: (payload ++ [highOctet crc, lowOctet crc])

end Sys2Proof
end

