-- ==== Sys2Proof/Machine/State.lean ====
section
/-! DEFINITION. The machine's state as plain data: the ten registers of 10_state.md rule R20, the environment's state that a run
depends on (rule R35), the launch parameters of 00_scope.md rule R6, a returned value and the environment's coming inputs; the reasons a step can stop;
and the state after reset. -/

namespace Sys2Proof.Machine

/-- The shared buffer: cells with rising addresses, none equal to what an unlisted address reads as (20_memory.md R50). -/
abbrev Memory := List Host.Cell

/-- One entry of the outgoing trace (00_scope.md R12, 30_encoding.md R82). -/
inductive TraceEvent where
  /-- a `putByte(b)` -/
  | tx (b : Byte)
  /-- a `timerReset()` -/
  | trst
  deriving DecidableEq, Repr

/-- What the environment does between two steps (00_scope.md R9, R12, R14): log entry 5. -/
structure EnvInput where
  /-- a byte store the host hands over before a session, its contents from offset 0 (R14) -/
  supply   : Option (List Byte)
  /-- bytes that arrive at the transport, in order (60_exceptions.md R171) -/
  arrivals : List Byte
  /-- milliseconds that pass (60_exceptions.md R172) -/
  wait     : Nat
  /-- a host command, taken as this step; without one the step is the block's own turn -/
  cmd      : Option HostCmd
  deriving DecidableEq, Repr

/-- Everything the spec gives the machine; one field for each line of INVENTORY.md's State. -/
structure State where
  /-- `STATE` (10_state.md R27) -/
  seq             : SeqState
  /-- `BLK` (R21) -/
  blk             : Byte
  /-- `CNT` (R22) -/
  cnt             : Byte
  /-- `CRC` (R23) -/
  crc             : Word16
  /-- `RXCRC` (R24) -/
  rxcrc           : Word16
  /-- `CUR` (R25): a number below `2^CURW` -/
  cur             : Nat
  /-- `LAST` (R26) -/
  last            : Byte
  /-- `RETRY` (R29) -/
  retry           : Byte
  /-- `CAP` (R28): a number of `CURW + 1` bits -/
  cap             : Nat
  /-- `ROLE` (R30) -/
  role            : Role
  /-- the shared buffer (20_memory.md R50) -/
  buf             : Memory
  /-- the transport's bytes not yet taken, oldest first (R35, 60_exceptions.md R171) -/
  pending         : List Byte
  /-- the timer's milliseconds since the last `timerReset()` (R35, 60_exceptions.md R172) -/
  elapsed         : Nat
  /-- what was given to `putByte` and each `timerReset()`, oldest first (00_scope.md R12) -/
  trace           : List TraceEvent
  /-- the launch parameter `CURW`, the width of `CUR` and of offset arithmetic (00_scope.md R6, R12; log entry 1) -/
  curw            : Nat
  /-- the launch parameter `UL_TIMEOUT_COUNTS`, OPEN in the spec (00_scope.md R6; log entry 2) -/
  ulTimeoutCounts : Bool
  /-- what an internal function run as an operation of its own last returned to its caller; no register (40_crc.md R90; log entry 7) -/
  returned        : Option Word16
  /-- what the environment does before each coming step; past its end the environment does nothing (log entry 5) -/
  inputs          : List EnvInput
  deriving DecidableEq, Repr

/-- Why the machine stops with a fault. -/
inductive Fault where
  /-- `BufferRange(addr)`: a buffer access with `addr >= CAP`, raised by `RX.RUN` and `TX.SENDBLOCK` (20_memory.md R54). Safe: the
  spec promises nothing of the state after it. -/
  | bufferRange (addr : Nat)
  deriving DecidableEq, Repr

/-- Why a step is refused. -/
inductive Refusal where
  /-- an operation that has no meaning yet, raised by an arm of `exec` only. Safe: nothing is claimed of it. -/
  | notModelled (mnemonic : String)
  /-- `SessionActive`: a start command while `ROLE ≠ NONE`, raised by `START.DL` and `START.UL` (00_scope.md R11). Safe: the spec
  gives it no meaning. -/
  | sessionActive
  /-- `IllegalCapacity`: a start command with a capacity outside 10_state.md R28, raised by `START.DL` and `START.UL`. Safe: the spec
  gives it no meaning. -/
  | illegalCapacity
  /-- no step kind of 00_scope.md R10 is enabled, raised by `step`; or a poll or drain operation run outside its enabling condition,
  raised by `POLL.*` and `DRAIN`. Safe: the spec has no such step. -/
  | notEnabled
  /-- the host hands over a byte store while a session is active, raised by `step` (93_implementation_defined.md U13). Safe: the spec
  has no such move. -/
  | bufferInUse
  deriving DecidableEq, Repr

/-- The three outcomes of an operation. -/
abbrev Result := Host.Outcome State Fault Refusal

/-- The machine after hardware reset (10_state.md R36, 70_reset_and_hazards.md R180). The spec's reset does not touch the buffer, the
transport, the timer and the launch parameters; their values here are the launch values of log entries 1 to 5 and 7. -/
def State.reset : State where
  seq := .await
  blk := 0#8
  cnt := 0#8
  crc := 0#16
  rxcrc := 0#16
  cur := 0
  last := 0#8
  retry := 0#8
  cap := 0
  role := .none
  buf := []
  pending := []
  elapsed := 0
  trace := []
  curw := Config.curwDefault
  ulTimeoutCounts := true
  returned := none
  inputs := []

end Sys2Proof.Machine
end

