-- ==== Sys2Proof/Machine/Ops.lean ====
section
/-! DEFINITION. The named operations over the state: the buffer's cells, field updates, the checked buffer accesses of 20_memory.md
rules R52 to R54, the collaborators' primitives of 60_exceptions.md rules R170 to R172, entering `ABORT` (rule R167) and closing a
session (rules R13, R168). -/

namespace Sys2Proof.Machine

/-! ## The buffer's cells -/

/-- The byte at an offset; an unlisted offset reads as `Config.unlistedByte` (log entry 3). -/
def Memory.read : Memory → Nat → Byte
  | [], _ => Config.unlistedByte
  | (a, v) :: m, k => if k = a then v else Memory.read m k

/-- Set the byte at an offset and keep the canonical form: rising offsets, no cell equal to what an unlisted offset reads as. -/
def Memory.write : Memory → Nat → Byte → Memory
  | [], k, v => if v = Config.unlistedByte then [] else [(k, v)]
  | (a, w) :: m, k, v =>
    if k < a then (if v = Config.unlistedByte then (a, w) :: m else (k, v) :: (a, w) :: m)
    else if k = a then (if v = Config.unlistedByte then m else (k, v) :: m)
    else (a, w) :: Memory.write m k v

/-- Every cell's offset is above `lo` where one is given, offsets rise, and no cell holds the unlisted byte. -/
def Memory.wfFrom : Option Nat → Memory → Bool
  | _, [] => true
  | lo, (a, v) :: m => (match lo with | none => true | some l => decide (l < a)) && v != Config.unlistedByte && Memory.wfFrom (some a) m

/-- The canonical form of a memory. -/
def Memory.wf (m : Memory) : Bool := Memory.wfFrom none m

/-- The cells of a store whose bytes stand at the offsets from `base` on. -/
def Memory.ofBytes : Nat → List Byte → Memory
  | _, [] => []
  | base, v :: vs => if v = Config.unlistedByte then Memory.ofBytes (base + 1) vs else (base, v) :: Memory.ofBytes (base + 1) vs

/-- The `n` bytes from an offset on. -/
def Memory.slice (m : Memory) (a n : Nat) : List Byte := (List.range n).map (fun i => m.read (a + i))

/-! ## Field updates -/

def State.setSeq (s : State) (v : SeqState) : State := { s with seq := v }
def State.setBlk (s : State) (v : Byte) : State := { s with blk := v }
def State.setCnt (s : State) (v : Byte) : State := { s with cnt := v }
def State.setCrc (s : State) (v : Word16) : State := { s with crc := v }
def State.setRxcrc (s : State) (v : Word16) : State := { s with rxcrc := v }
def State.setCur (s : State) (v : Nat) : State := { s with cur := v }
def State.setLast (s : State) (v : Byte) : State := { s with last := v }
def State.setRetry (s : State) (v : Byte) : State := { s with retry := v }
def State.setCap (s : State) (v : Nat) : State := { s with cap := v }
def State.setRole (s : State) (v : Role) : State := { s with role := v }
def State.setBuf (s : State) (v : Memory) : State := { s with buf := v }
def State.setPending (s : State) (v : List Byte) : State := { s with pending := v }
def State.setElapsed (s : State) (v : Nat) : State := { s with elapsed := v }
def State.setTrace (s : State) (v : List TraceEvent) : State := { s with trace := v }
def State.setReturned (s : State) (v : Option Word16) : State := { s with returned := v }
def State.setInputs (s : State) (v : List EnvInput) : State := { s with inputs := v }

/-! ## The collaborators' primitives -/

/-- `putByte(b)`: append to the outgoing trace; it never fails and never waits (60_exceptions.md R170). -/
def State.putByte (s : State) (b : Byte) : State := s.setTrace (s.trace ++ [.tx b])

/-- `byteAvailable()`: at least one received byte is waiting (60_exceptions.md R171). -/
def State.byteAvailable (s : State) : Bool := !s.pending.isEmpty

/-- `getByte()`: remove and return the oldest pending byte; with none pending there is nothing to return, and no rule calls it then
(60_exceptions.md R171, 93_implementation_defined.md U6). -/
def State.getByte (s : State) : Option (Byte × State) :=
  match s.pending with
  | [] => none
  | b :: rest => some (b, s.setPending rest)

/-- `timerReset()`: the elapsed time becomes 0; the call is a mark in the trace (60_exceptions.md R172, 00_scope.md R12). -/
def State.timerReset (s : State) : State := (s.setElapsed 0).setTrace (s.trace ++ [.trst])

/-! ## Checked buffer accesses -/

/-- `MemRead(addr, 1)` (20_memory.md R52, R54). -/
def State.memRead (s : State) (addr : Nat) : Except Fault Byte :=
  if addr < s.cap then .ok (s.buf.read addr) else .error (.bufferRange addr)

/-- `MemWrite(addr, 1, v)` (20_memory.md R53, R54). -/
def State.memWrite (s : State) (addr : Nat) (v : Byte) : Except Fault State :=
  if addr < s.cap then .ok (s.setBuf (s.buf.write addr v)) else .error (.bufferRange addr)

/-- An operation that ends in a fault or a state, as an outcome. -/
def toResult : Except Fault State → Result
  | .ok s => .next s
  | .error f => .fault f

/-- Run a second operation on the first one's next state. -/
def onNext (r : Result) (f : State → Result) : Result :=
  match r with
  | .next s => f s
  | .fault e => .fault e
  | .refused e => .refused e

/-! ## Entering `ABORT`, closing a session, starting one, reset -/

/-- Entering `ABORT`, the block's only "trap entry": `STATE <- ABORT` and nothing else; nothing is saved and there is no vector
(60_exceptions.md R167). Shared by `RX.AWAIT.OTHER`, `RX.BLOCK2` and `RETRY.CHECK`. -/
def State.enterAbort (s : State) : State := s.setSeq .abort

/-- The only way out of a terminal state before a new start: `ROLE <- NONE` (00_scope.md R13, 60_exceptions.md R167, R168). Shared by
`SESSION.END` and `DRAIN`. -/
def State.closeSession (s : State) : State := s.setRole .none

/-- The session-start values of 10_state.md R37, for both start commands. -/
def State.startSession (s : State) (role : Role) (cap : Nat) : State :=
  { s with
    cap := cap
    role := role
    seq := .await
    retry := 0#8
    cur := 0
    last := 0#8
    blk := 1#8
    cnt := 0#8
    crc := Config.crcInit
    rxcrc := 0#16 }

/-- The reset values of 10_state.md R36 on the ten registers; the buffer, the transport, the timer and the trace are left alone
(70_reset_and_hazards.md R180, R181). -/
def State.resetRegisters (s : State) : State :=
  { s with
    role := .none
    seq := .await
    blk := 0#8
    cnt := 0#8
    crc := 0#16
    rxcrc := 0#16
    cur := 0
    last := 0#8
    retry := 0#8
    cap := 0 }

end Sys2Proof.Machine
end

