-- ==== Sys2Proof/Machine/Operands.lean ====
section
/-! DEFINITION. The operand forms and computed addresses: cursor arithmetic (10_state.md rule R25), the legal capacities and the
number of blocks (rule R28), the transmit offset (42_transmit.md rules R120, R122) and the octets of the received CRC (10_state.md
rule R24). Where `CURW` plays a part it is an argument (00_scope.md rule R6). -/

namespace Sys2Proof.Machine

/-- `x mod 2^w` as a number from 0 to `2^w - 1`: what `w` bits hold of an exact result (10_state.md R25, 42_transmit.md R122). -/
def wrap (w : Nat) (x : Int) : Nat := (x % ((2 ^ w : Nat) : Int)).toNat

/-- `(CUR + 1) mod 2^CURW` (41_receive.md R107). -/
def cursorNext (w cur : Nat) : Nat := wrap w (cur + 1)

/-- `(CUR - 128) mod 2^CURW`: no lower-bound check (41_receive.md R106, R109). -/
def cursorRewind (w cur : Nat) : Nat := wrap w (cur - Config.payload)

/-- The legal capacities: multiples of 128 from 128 to `2^CURW - 128` (10_state.md R28). -/
def capLegal (w cap : Nat) : Bool :=
  decide (cap % Config.payload = 0) && decide (Config.payload ≤ cap) && decide (cap + Config.payload ≤ 2 ^ w)

/-- `NBLK = CAP / 128` (00_scope.md R6). -/
def blockCount (cap : Nat) : Nat := cap / Config.payload

/-- The offset of block `n` before the wrap test: `(128 * ((n - 1) mod 2^CURW)) mod 2^CURW` (42_transmit.md R120, R122). -/
def rawOffset (w : Nat) (n : Byte) : Nat := wrap w (Config.payload * wrap w (n.toNat - 1))

/-- The offset `SendBlock` reads from: "if this offset reaches or exceeds the buffer capacity it is defensively reset to 0"
(42_transmit.md R120). -/
def txOffset (w cap : Nat) (n : Byte) : Nat := if cap ≤ rawOffset w n then 0 else rawOffset w n

/-- `RXCRC` with the high octet replaced, bits 7:0 unchanged (41_receive.md R108). -/
def withHighOctet (r : Word16) (b : Byte) : Word16 := joinOctets b (lowOctet r)

/-- `RXCRC` with the low octet replaced, bits 15:8 unchanged (41_receive.md R109). -/
def withLowOctet (r : Word16) (b : Byte) : Word16 := joinOctets (highOctet r) b

end Sys2Proof.Machine
end

