-- ==== Sys2Proof/Machine/Flags.lean ====
section
/-! DEFINITION. The block has no flags (10_state.md rule R33): "the outcome of the CRC compare and of the complement check is consumed
inside the transition that computes it and is stored nowhere". These are those outcomes, each computed in one place. -/

namespace Sys2Proof.Machine

/-- The complement check of a frame header (41_receive.md R106). -/
def complementGood (blk b : Byte) : Bool := b == complement blk

/-- The duplicate test: a plain equality of two 8-bit registers (41_receive.md R106). -/
def isDuplicate (s : State) : Bool := s.blk == s.last

/-- The payload is complete: the count after the increment is 128 (41_receive.md R107, 92_eei_decisions.md D28). -/
def payloadComplete (cnt : Byte) : Bool := cnt.toNat == Config.payload

/-- The CRC compare, all 16 bits (41_receive.md R109). -/
def crcMatches (s : State) : Bool := s.rxcrc == s.crc

/-- The upload has acknowledged its last block: the 8-bit `BLK` exceeds `NBLK` as a natural number (42_transmit.md R125). -/
def blocksExhausted (s : State) : Bool := decide (blockCount s.cap < s.blk.toNat)

/-- `TimedOut`: `elapsed() > 1000`, strict (43_session_timeout.md R146). -/
def timedOut (s : State) : Bool := decide (Config.timeoutMs < s.elapsed)

/-- `RETRY > 15`, strict (43_session_timeout.md R148). -/
def retryExhausted (s : State) : Bool := decide (Config.maxRetry < s.retry.toNat)

/-- `STATE` in `{ABORT, END}` (00_scope.md, glossary: terminal state). -/
def isTerminal (q : SeqState) : Bool :=
  match q with
  | .abort => true
  | .ended => true
  | .await => false
  | .block => false
  | .block2 => false
  | .run => false
  | .crc1 => false
  | .crc2 => false

end Sys2Proof.Machine
end

