-- ==== Sys2Proof/Machine/Crc.lean ====
section
/-! DEFINITION. The CRC engine (40_crc.md): the pure update, the CRC of a sequence, and the operation `CRC.UPDATE`. -/

namespace Sys2Proof.Machine

/-- One round: shift left, and XOR the polynomial when the bit shifted out was 1 (40_crc.md R90). -/
def crcRound (a : Word16) : Word16 := if a.msb then (a <<< 1) ^^^ Config.crcPoly else a <<< 1

/-- `k` rounds. -/
def crcRounds : Nat → Word16 → Word16
  | 0, a => a
  | k + 1, a => crcRounds k (crcRound a)

/-- `CrcUpdate(acc, b)`: the byte lands in bits 15:8, then 8 rounds (40_crc.md R90). -/
def crcUpdate (acc : Word16) (b : Byte) : Word16 := crcRounds 8 (acc ^^^ (b.setWidth 16 <<< 8))

/-- Continue a CRC over a sequence: `fold(a, t)` (40_crc.md R95). -/
def crcFold (acc : Word16) (bytes : List Byte) : Word16 := bytes.foldl crcUpdate acc

/-- `Crc(s)`: from the initial value 0 (40_crc.md R92). -/
def crcOf (bytes : List Byte) : Word16 := crcFold Config.crcInit bytes

/-- `CRC.UPDATE` (40_crc.md R90, R94): no register is written, nothing is emitted; the result goes back to the caller, here into the
model's field `returned` (log entry 7). `RX.RUN` and `TX.SENDBLOCK` assign the result of `crcUpdate` to `CRC` themselves. -/
def execCrcUpdate (acc : Word16) (b : Byte) (s : State) : Result := .next (s.setReturned (some (crcUpdate acc b)))

end Sys2Proof.Machine
end

