-- ==== Sys2Proof/Machine/Receive.lean ====
section
/-! DEFINITION. The receive state machine (41_receive.md): a meaning for each transition, and the dispatch `HandleByte`. A meaning
runs the transition it is named after; which one runs is `HandleByte`'s choice (rule R100). -/

namespace Sys2Proof.Machine

/-- `RX.AWAIT.SOH` (R101). -/
def execRxAwaitSoh (s : State) : Result := .next (((s.setCnt 0#8).setCrc Config.crcInit).setSeq .block)

/-- `RX.AWAIT.EOT` (R102): ACK twice. -/
def execRxAwaitEot (s : State) : Result := .next (((s.putByte Config.ack).putByte Config.ack).setSeq .ended)

/-- `RX.AWAIT.ETB` (R103): ACK once. -/
def execRxAwaitEtb (s : State) : Result := .next ((s.putByte Config.ack).setSeq .ended)

/-- `RX.AWAIT.OTHER` (R104): the byte's value plays no part and nothing is sent. -/
def execRxAwaitOther (_b : Byte) (s : State) : Result := .next s.enterAbort

/-- `RX.BLOCK` (R105): no value is rejected. -/
def execRxBlock (b : Byte) (s : State) : Result := .next ((s.setBlk b).setSeq .block2)

/-- `RX.BLOCK2` (R106): the complement check, then the duplicate rewind. -/
def execRxBlock2 (b : Byte) (s : State) : Result :=
  if complementGood s.blk b then
    .next ((if isDuplicate s then s.setCur (cursorRewind s.curw s.cur) else s).setSeq .run)
  else .next s.enterAbort

/-- `RX.RUN` after its store: advance the cursor, count, and leave `RUN` on the 128th byte (R107). -/
def countPayload (s : State) : State :=
  let s1 := (s.setCur (cursorNext s.curw s.cur)).setCnt (s.cnt + 1#8)
  if payloadComplete s1.cnt then s1.setSeq .crc1 else s1

/-- `RX.RUN` (R107): fold, store at the cursor (`BufferRange(CUR)` when `CUR >= CAP`), advance, count. -/
def execRxRun (b : Byte) (s : State) : Result :=
  toResult (((s.setCrc (crcUpdate s.crc b)).memWrite s.cur b).map countPayload)

/-- `RX.CRC1` (R108). -/
def execRxCrc1 (b : Byte) (s : State) : Result := .next ((s.setRxcrc (withHighOctet s.rxcrc b)).setSeq .crc2)

/-- `RX.CRC2` (R109): complete `RXCRC`, compare; ACK and commit, or NAK and rewind. -/
def execRxCrc2 (b : Byte) (s : State) : Result :=
  let s1 := s.setRxcrc (withLowOctet s.rxcrc b)
  .next ((if crcMatches s1 then (s1.putByte Config.ack).setLast s1.blk
    else (s1.putByte Config.nak).setCur (cursorRewind s1.curw s1.cur)).setSeq .await)

/-- `RX.TERMINAL` (R110): nothing changes. -/
def execRxTerminal (_b : Byte) (s : State) : Result := .next s

/-- `HandleByte(b)`: the total dispatch of R100. -/
def handleByte (b : Byte) (s : State) : Result :=
  match s.seq with
  | .await =>
    if b = Config.soh then execRxAwaitSoh s
    else if b = Config.eot then execRxAwaitEot s
    else if b = Config.etb then execRxAwaitEtb s
    else execRxAwaitOther b s
  | .block => execRxBlock b s
  | .block2 => execRxBlock2 b s
  | .run => execRxRun b s
  | .crc1 => execRxCrc1 b s
  | .crc2 => execRxCrc2 b s
  | .abort => execRxTerminal b s
  | .ended => execRxTerminal b s

end Sys2Proof.Machine
end

