-- ==== Sys2Proof/Machine/Transmit.lean ====
section
/-! DEFINITION. The transmit driver and the upload dispatch (42_transmit.md). -/

namespace Sys2Proof.Machine

/-- The payload loop of `SendBlock`: read, fold, emit, for `k` bytes from offset `a` on (R120). -/
def sendPayload : Nat → Nat → State → Except Fault State
  | 0, _, s => .ok s
  | k + 1, a, s =>
    match s.memRead a with
    | .error f => .error f
    | .ok d => sendPayload k (a + 1) ((s.setCrc (crcUpdate s.crc d)).putByte d)

/-- The header of a frame: marker, number, complement (R120). -/
def sendHeader (n : Byte) (s : State) : State := ((s.putByte Config.soh).putByte n).putByte (complement n)

/-- The trailer of a frame: the CRC's high octet, then its low octet (R120). -/
def sendTrailer (s : State) : State := (s.putByte (highOctet s.crc)).putByte (lowOctet s.crc)

/-- `SendBlock(n)`: one frame, all inside one step (R120). -/
def sendBlock (n : Byte) (s : State) : Except Fault State :=
  (sendPayload Config.payload (txOffset s.curw s.cap n) ((sendHeader n s).setCrc Config.crcInit)).map sendTrailer

/-- `TX.SENDBLOCK` (R120). -/
def execTxSendBlock (n : Byte) (s : State) : Result := toResult (sendBlock n s)

/-- `UL.C` (R124): block 1, whenever the handshake byte arrives. -/
def execUlC (s : State) : Result := toResult (sendBlock 1#8 (s.setBlk 1#8))

/-- `UL.ACK` (R125): the next block, or end-of-transmission past the last one. -/
def execUlAck (s : State) : Result :=
  let s1 := s.setBlk (s.blk + 1#8)
  if blocksExhausted s1 then .next ((s1.putByte Config.eot).setSeq .ended)
  else toResult (sendBlock s1.blk s1)

/-- `UL.OTHER` (R126): the current block again, whatever the byte. -/
def execUlOther (_b : Byte) (s : State) : Result := toResult (sendBlock s.blk s)

/-- `UploadByte(b)`: the dispatch of R123. -/
def uploadByte (b : Byte) (s : State) : Result :=
  if b = Config.handshake then execUlC s
  else if b = Config.ack then execUlAck s
  else execUlOther b s

end Sys2Proof.Machine
end

