-- ==== Sys2Proof/Machine/Session.lean ====
section
/-! DEFINITION. Session start, the four operations of a `POLL`, the retry ceiling, the end of a session, the drain
(43_session_timeout.md) and the reset (70_reset_and_hazards.md). -/

namespace Sys2Proof.Machine

/-- What both start commands check, in this order: no session is active, the capacity is legal (R140, R141; DEDUCED order, log
entry 8). -/
def startCheck (cap : Nat) (s : State) (go : State → Result) : Result :=
  if s.role ≠ .none then .refused .sessionActive
  else if capLegal s.curw cap then go s
  else .refused .illegalCapacity

/-- `START.DL` (R140): session registers, the first handshake byte, timer reset. -/
def execStartDl (cap : Nat) (s : State) : Result :=
  startCheck cap s (fun s0 => .next (((s0.startSession .dl cap).putByte Config.handshake).timerReset))

/-- `START.UL` (R141): session registers, timer reset; nothing is sent. -/
def execStartUl (cap : Nat) (s : State) : Result :=
  startCheck cap s (fun s0 => .next ((s0.startSession .ul cap).timerReset))

/-- A `POLL` of the given role is enabled (00_scope.md R10). -/
def pollEnabled (role : Role) (s : State) : Bool := s.role == role && !isTerminal s.seq

/-- What every byte read does before its dispatch: the timer is reset, and `RETRY` is zeroed only where `RETRY_RESET_ON_BYTE` says so
(R143, R144, R152). -/
def noteByte (s : State) : State :=
  if Config.retryResetOnByte then s.timerReset.setRetry 0#8 else s.timerReset

/-- A `POLL` that reads a byte: `getByte()`, `timerReset()`, dispatch (R143, R144); refused where no such step is enabled. -/
def pollByte (role : Role) (dispatch : Byte → State → Result) (s : State) : Result :=
  if pollEnabled role s then
    match s.getByte with
    | none => .refused .notEnabled
    | some (b, s1) => dispatch b (noteByte s1)
  else .refused .notEnabled

/-- `POLL.DL.BYTE` (R143). -/
def execPollDlByte (s : State) : Result := pollByte .dl handleByte s

/-- `POLL.UL.BYTE` (R144). -/
def execPollUlByte (s : State) : Result := pollByte .ul uploadByte s

/-- `RetryCheck()`: `ABORT` when `RETRY > 15`, whatever the role and the protocol state (R148). -/
def checkRetry (s : State) : State := if retryExhausted s then s.enterAbort else s

/-- One more timeout counted: `RETRY + 1`, and the timer is reset when `RESET_TIMER_ON_TIMEOUT` (R145, R147, R151). -/
def countTimeout (s : State) : State :=
  let s1 := s.setRetry (s.retry + 1#8)
  if Config.resetTimerOnTimeout then s1.timerReset else s1

/-- A `POLL` that finds nothing available: the timeout action, then the ceiling check (R145, R147). -/
def pollIdle (role : Role) (onTimeout : State → State) (s : State) : Result :=
  if pollEnabled role s && !s.byteAvailable then
    .next (checkRetry (if timedOut s then onTimeout s else s))
  else .refused .notEnabled

/-- `POLL.DL.IDLE` (R145): on a timeout the handshake byte is sent again, in every receive state. -/
def execPollDlIdle (s : State) : Result := pollIdle .dl (fun t => countTimeout (t.putByte Config.handshake)) s

/-- `POLL.UL.IDLE` (R147): nothing is sent; the timeout counts only when `UL_TIMEOUT_COUNTS`. -/
def execPollUlIdle (s : State) : Result := pollIdle .ul (fun t => if t.ulTimeoutCounts then countTimeout t else t) s

/-- `RETRY.CHECK` (R148). -/
def execRetryCheck (s : State) : Result := .next (checkRetry s)

/-- `SESSION.END` (R149). -/
def execSessionEnd (s : State) : Result := .next s.closeSession

/-- `DRAIN` (R150): discard one byte, or close the session when none is available; refused where it is not enabled. -/
def execDrain (s : State) : Result :=
  if s.role ≠ .none ∧ s.seq = .abort then
    match s.getByte with
    | some (_, s1) => .next s1
    | none => .next s.closeSession
  else .refused .notEnabled

/-- `RESET` (70_reset_and_hazards.md R180): enabled always. -/
def execReset (s : State) : Result := .next s.resetRegisters

/-- The last action of a `POLL` step: `SESSION.END` when its operation made `STATE = END` (R142, R149). -/
def finishPoll (s : State) : Result := if s.seq = .ended then execSessionEnd s else .next s

end Sys2Proof.Machine
end

