-- ==== Sys2Proof/Machine/Environment.lean ====
section
/-! DEFINITION. The environment's side (00_scope.md rules R9, R12, R14): what it does before a step, the selector a step decodes, what
the host may read, and how an inbound byte is laid where the next step takes it. -/

namespace Sys2Proof.Machine

/-- An environment that does nothing. -/
def EnvInput.quiet : EnvInput where
  supply := none
  arrivals := []
  wait := 0
  cmd := none

/-- The environment's coming input; past the list's end it does nothing. -/
def State.nextInput (s : State) : EnvInput := s.inputs.headD EnvInput.quiet

/-- The host hands over a store: only between sessions (93_implementation_defined.md U13, 00_scope.md R14). -/
def State.takeSupply (s : State) : Option (List Byte) → Except Refusal State
  | none => .ok s
  | some bytes => if s.role = .none then .ok (s.setBuf (Memory.ofBytes 0 bytes)) else .error .bufferInUse

/-- The environment's part before a step: the store, the arriving bytes behind those that wait, the passing time (60_exceptions.md
R171, R172); the input is used up. -/
def State.takeInput (s : State) : Except Refusal State :=
  (s.takeSupply s.nextInput.supply).map (fun s1 =>
    ((s1.setPending (s1.pending ++ s.nextInput.arrivals)).setElapsed (s1.elapsed + s.nextInput.wait)).setInputs s.inputs.tail)

/-- What the step decodes: the host's command where there is one, else the block's own turn with its one sample of `byteAvailable()`
(00_scope.md R10, 43_session_timeout.md R142). -/
def State.selector (s : State) (cmd : Option HostCmd) : Selector :=
  match cmd with
  | some c => ⟨s.role, s.seq, .host c⟩
  | none => ⟨s.role, s.seq, .turn s.byteAvailable⟩

/-- The operation is one of the four of a `POLL` (43_session_timeout.md R142). -/
def isPoll : Instr → Bool
  | .pollDlByte => true
  | .pollUlByte => true
  | .pollDlIdle => true
  | .pollUlIdle => true
  | .crcUpdate _ _ => false
  | .rxAwaitSoh => false
  | .rxAwaitEot => false
  | .rxAwaitEtb => false
  | .rxAwaitOther _ => false
  | .rxBlock _ => false
  | .rxBlock2 _ => false
  | .rxRun _ => false
  | .rxCrc1 _ => false
  | .rxCrc2 _ => false
  | .rxTerminal _ => false
  | .txSendBlock _ => false
  | .ulC => false
  | .ulAck => false
  | .ulOther _ => false
  | .startDl _ => false
  | .startUl _ => false
  | .retryCheck => false
  | .sessionEnd => false
  | .drain => false
  | .reset => false

/-- What a step adds after its operation: a `POLL` ends with `SESSION.END` when `STATE = END` (43_session_timeout.md R142). -/
def afterOperation (i : Instr) (r : Result) : Result := if isPoll i then onNext r finishPoll else r

/-- One step: the environment's part, the decode, the operation, the end of the session. A selector that names no operation is no
step (00_scope.md R10). -/
def stepWith (run : Instr → State → Result) (s : State) : Result :=
  match s.takeInput with
  | .error e => .refused e
  | .ok s1 =>
    match decode (s1.selector s.nextInput.cmd) with
    | .error _ => .refused .notEnabled
    | .ok i => afterOperation i (run i s1)

/-- What the host reads when the session is over: `STATE` (00_scope.md R12, R14). -/
def State.hostOutcome (s : State) : Option SeqState := if s.role = .none then some s.seq else none

/-- What the host reads beside it by the spec's own choice: `CUR` (92_eei_decisions.md D30). -/
def State.hostCount (s : State) : Option Nat := if s.role = .none then some s.cur else none

/-- Lay an inbound byte where the next step takes it: a session of the role and state the byte's table row is read in, with a legal
capacity, the byte first in the transport, and an environment that does nothing (log entry 6). -/
def State.withInbound (s : State) (b : Byte) : State :=
  { s with
    role := (tableContext b).1
    seq := (tableContext b).2
    cap := if capLegal s.curw s.cap then s.cap else Config.payload
    pending := b :: s.pending
    inputs := EnvInput.quiet :: s.inputs }

end Sys2Proof.Machine
end

