-- ==== Sys2Proof/Machine/Dispatch.lean ====
section
/-! DEFINITION. The dispatch: one arm per constructor of Instr, each one call of the operation's meaning. -/

namespace Sys2Proof.Machine

def exec (i : Instr) (s : State) : Host.Outcome State Fault Refusal :=
  match i with
  | .crcUpdate acc b => Sys2Proof.Machine.execCrcUpdate acc b s
  | .rxAwaitSoh => Sys2Proof.Machine.execRxAwaitSoh s
  | .rxAwaitEot => Sys2Proof.Machine.execRxAwaitEot s
  | .rxAwaitEtb => Sys2Proof.Machine.execRxAwaitEtb s
  | .rxAwaitOther b => Sys2Proof.Machine.execRxAwaitOther b s
  | .rxBlock b => Sys2Proof.Machine.execRxBlock b s
  | .rxBlock2 b => Sys2Proof.Machine.execRxBlock2 b s
  | .rxRun b => Sys2Proof.Machine.execRxRun b s
  | .rxCrc1 b => Sys2Proof.Machine.execRxCrc1 b s
  | .rxCrc2 b => Sys2Proof.Machine.execRxCrc2 b s
  | .rxTerminal b => Sys2Proof.Machine.execRxTerminal b s
  | .txSendBlock n => Sys2Proof.Machine.execTxSendBlock n s
  | .ulC => Sys2Proof.Machine.execUlC s
  | .ulAck => Sys2Proof.Machine.execUlAck s
  | .ulOther b => Sys2Proof.Machine.execUlOther b s
  | .startDl cap => Sys2Proof.Machine.execStartDl cap s
  | .startUl cap => Sys2Proof.Machine.execStartUl cap s
  | .pollDlByte => Sys2Proof.Machine.execPollDlByte s
  | .pollUlByte => Sys2Proof.Machine.execPollUlByte s
  | .pollDlIdle => Sys2Proof.Machine.execPollDlIdle s
  | .pollUlIdle => Sys2Proof.Machine.execPollUlIdle s
  | .retryCheck => Sys2Proof.Machine.execRetryCheck s
  | .sessionEnd => Sys2Proof.Machine.execSessionEnd s
  | .drain => Sys2Proof.Machine.execDrain s
  | .reset => Sys2Proof.Machine.execReset s

end Sys2Proof.Machine
end

