-- ==== Sys2Proof/Machine/Step.lean ====
section
/-! DEFINITION. The step of the machine, and where it takes its next operation from. What a step does is `stepWith`
(Machine/Environment.lean). -/

namespace Sys2Proof.Machine

/-- One step of the machine (00_scope.md R10, R11). -/
def step (s : State) : Host.Outcome State Fault Refusal := stepWith exec s

/-- `s` with a word of the opcode table, one inbound byte, laid where the next step takes it; a word of another length is no inbound
byte and changes nothing (log entry 6). -/
def State.withFetchWord (s : State) (nbits w : Nat) : State :=
  if nbits = 8 then s.withInbound (BitVec.ofNat 8 w) else s

end Sys2Proof.Machine
end

