-- ==== Sys2Proof/Safety.lean ====
section
/-! DEFINITION. The terms the statements use: the invariants of the machine, a running session, the frame a block number stands for,
and the CRC in plain numbers. -/

namespace Sys2Proof.Machine

/-- The session is running: a `POLL` is enabled (00_scope.md R10). -/
def State.running (s : State) : Prop := s.role ≠ .none ∧ s.seq ≠ .abort ∧ s.seq ≠ .ended

/-- What holds of every state a run can reach (10_state.md R22, R25, R28, R29, R30; 42_transmit.md R127; 43_session_timeout.md R149). -/
structure Inv (s : State) : Prop where
  /-- the buffer is in canonical form -/
  bufWf : s.buf.wf = true
  /-- a session has a legal capacity (R28) -/
  capOk : s.role ≠ .none → capLegal s.curw s.cap = true
  /-- `CUR` is a number of `CURW` bits (R25) -/
  curFits : s.cur < 2 ^ s.curw
  /-- `CAP` is a number of `CURW + 1` bits (R28) -/
  capFits : s.cap < 2 ^ (s.curw + 1)
  /-- `END` closes the session in the same step (R149) -/
  endedClosed : s.seq = .ended → s.role = .none
  /-- without a session `STATE` is `AWAIT` after a reset, or terminal (93_implementation_defined.md U11) -/
  closedSeq : s.role = .none → s.seq = .await ∨ s.seq = .abort ∨ s.seq = .ended
  /-- `STATE` stays `AWAIT` while an upload runs (R127) -/
  uploadSeq : s.role = .ul → s.seq = .await ∨ s.seq = .abort
  /-- the reachable values of `RETRY` are 0 to 16 (R29) -/
  retryBound : s.retry.toNat ≤ 16
  /-- a session with `RETRY = 16` has been aborted (R29) -/
  retryRunning : s.role ≠ .none → s.seq ≠ .abort → s.retry.toNat ≤ 15
  /-- the reachable values of `CNT` are 0 to 128 (R22) -/
  cntBound : s.cnt.toNat ≤ 128
  /-- the header of a frame leaves `CNT` and `CRC` as the marker set them -/
  headerFresh : s.seq = .block ∨ s.seq = .block2 → s.cnt = 0#8 ∧ s.crc = 0#16
  /-- in `RUN` the payload is not complete -/
  runCount : s.seq = .run → s.cnt.toNat < 128
  /-- in the trailer it is -/
  trailerCount : s.seq = .crc1 ∨ s.seq = .crc2 → s.cnt = 128#8

/-- From the first payload byte to the compare, `CRC` is the CRC of the `CNT` bytes of the buffer just below `CUR`: what the receiver
compares with the wire is the CRC of what it stored (41_receive.md R107, 40_crc.md R92). -/
def PayloadCoherent (s : State) : Prop :=
  s.role = .dl → s.seq = .run ∨ s.seq = .crc1 ∨ s.seq = .crc2 →
    s.cnt.toNat ≤ s.cur ∧ (0 < s.cnt.toNat → s.cur ≤ s.cap) ∧
    s.crc = crcOf (s.buf.slice (s.cur - s.cnt.toNat) s.cnt.toNat)

/-- The offset of block `n` in plain numbers: `128 * (n - 1)` in `w` bits, and 0 where there is no such block or that number is not
below the capacity (42_transmit.md R122). -/
def blockOffset (w cap : Nat) (n : Byte) : Nat :=
  if n.toNat = 0 ∨ cap ≤ 128 * (n.toNat - 1) % 2 ^ w then 0 else 128 * (n.toNat - 1) % 2 ^ w

/-- The 128 bytes a frame of number `n` carries. -/
def State.blockPayload (s : State) (n : Byte) : List Byte := s.buf.slice (blockOffset s.curw s.cap n) 128

/-- The state after the frame of number `n` has been sent: its 133 bytes in the trace, its CRC in `CRC`, nothing else changed
(42_transmit.md R120, R121). -/
def State.sentBlock (s : State) (n : Byte) : State :=
  { s with
    crc := crcOf (s.blockPayload n)
    trace := s.trace ++ (frameBytes n (s.blockPayload n) (crcOf (s.blockPayload n))).map .tx }

/-- One round of the CRC in plain numbers: "`a <- (a * 2) mod 2^16`, then XORs `0x1021` when the discarded bit was 1" (40_crc.md R90). -/
def crcRoundNat (a : Nat) : Nat := if 32768 ≤ a then (a * 2 % 65536) ^^^ 0x1021 else a * 2 % 65536

end Sys2Proof.Machine
end

