-- ==== Sys2Proof/Certificates/Slice0/Obligations.lean ====
section
/-! DEFINITION. The statements for the provers; nothing is proved here. A clause that rests on a decision the spec marks as its own is
said so in the docstring. -/

open Sys2Proof Sys2Proof.Machine

/-- A selector of each family, written out from the "Selected by" column of 30_encoding.md R79. The five `decodeTableWord` clauses read a
bare byte in the role and state that log entry 6 (DESIGN CHOICE) picks: they rest on the model's choice, not on the map. -/
def Obligations.DecodeOfWrittenOutSelectors : Prop :=
  decode ⟨.dl, .run, .callCrcUpdate 0x0000#16 0x31#8⟩ = .ok (.crcUpdate 0x0000#16 0x31#8) ∧
  decode ⟨.ul, .await, .callSendBlock 0x02#8⟩ = .ok (.txSendBlock 0x02#8) ∧
  decode ⟨.dl, .await, .byte 0b00000001#8⟩ = .ok .rxAwaitSoh ∧
  decode ⟨.dl, .await, .byte 0b00000100#8⟩ = .ok .rxAwaitEot ∧
  decode ⟨.dl, .await, .byte 0b00010111#8⟩ = .ok .rxAwaitEtb ∧
  decode ⟨.dl, .await, .byte 0b00011000#8⟩ = .ok (.rxAwaitOther 0x18#8) ∧
  decode ⟨.dl, .block2, .byte 0b00000001#8⟩ = .ok (.rxBlock2 0x01#8) ∧
  decode ⟨.dl, .run, .byte 0b00000100#8⟩ = .ok (.rxRun 0x04#8) ∧
  decode ⟨.ul, .await, .byte 0b01000011#8⟩ = .ok .ulC ∧
  decode ⟨.ul, .await, .byte 0b00000110#8⟩ = .ok .ulAck ∧
  decode ⟨.ul, .await, .byte 0b00010101#8⟩ = .ok (.ulOther 0x15#8) ∧
  decode ⟨.none, .await, .host (.startDl 256)⟩ = .ok (.startDl 256) ∧
  decode ⟨.dl, .run, .host .reset⟩ = .ok .reset ∧
  decode ⟨.dl, .crc1, .turn true⟩ = .ok .pollDlByte ∧
  decode ⟨.ul, .await, .turn false⟩ = .ok .pollUlIdle ∧
  decode ⟨.ul, .abort, .turn false⟩ = .ok .drain ∧
  decode ⟨.none, .await, .turn true⟩ = .error .noSession ∧
  decodeTableWord 8 0x01 = some .rxAwaitSoh ∧ decodeTableWord 8 0x04 = some .rxAwaitEot ∧
  decodeTableWord 8 0x17 = some .rxAwaitEtb ∧ decodeTableWord 8 0x43 = some .ulC ∧ decodeTableWord 8 0x06 = some .ulAck

/-- 30_encoding.md R79: the operation map, for all 25 operations and every operand value. -/
def Obligations.DecodeEncodeRoundTrip : Prop :=
  ∀ i : Instr, i.wellFormed = true → decode (encode i) = .ok i

/-- 41_receive.md R100: "every pair of state and byte has exactly one row"; 42_transmit.md R123: the choice does not depend on `STATE`. -/
def Obligations.ByteDecodeTotalAndLossless : Prop :=
  ∀ (q : SeqState) (b : Byte),
    (∃ i, decode ⟨.dl, q, .byte b⟩ = .ok i ∧ i.wellFormed = true ∧
      encode i = ⟨.dl, if q = .ended then .abort else q, .byte b⟩) ∧
    (∃ i, decode ⟨.ul, q, .byte b⟩ = .ok i ∧ i.wellFormed = true ∧ encode i = ⟨.ul, .await, .byte b⟩)

/-- 30_encoding.md R76, R77; the codes are the spec's own decision D5. -/
def Obligations.RegisterCodesRoundTrip : Prop :=
  seqCode .await = 0#3 ∧ seqCode .block = 1#3 ∧ seqCode .block2 = 2#3 ∧ seqCode .run = 3#3 ∧ seqCode .crc1 = 4#3 ∧
  seqCode .crc2 = 5#3 ∧ seqCode .abort = 6#3 ∧ seqCode .ended = 7#3 ∧
  roleCode .none = 0#2 ∧ roleCode .dl = 1#2 ∧ roleCode .ul = 2#2 ∧
  (∀ q, seqOfCode (seqCode q) = q) ∧ (∀ c, seqCode (seqOfCode c) = c) ∧
  (∀ r, roleOfCode (roleCode r) = some r) ∧ roleOfCode 3#2 = none

/-- 30_encoding.md R72, R73 and 42_transmit.md R121; 133 and not 132: 90_conflicts.md C1. -/
def Obligations.FrameLayout : Prop :=
  ∀ (n : Byte) (p : List Byte), p.length = 128 →
    (frameBytes n p (crcOf p)).length = 133 ∧
    (frameBytes n p (crcOf p))[0]? = some 0x01#8 ∧
    (frameBytes n p (crcOf p))[1]? = some n ∧
    (∃ c : Byte, (frameBytes n p (crcOf p))[2]? = some c ∧ c.toNat = 255 - n.toNat ∧ c = ~~~n) ∧
    (∀ i, i < 128 → (frameBytes n p (crcOf p))[3 + i]? = p[i]?) ∧
    (∃ hi lo : Byte, (frameBytes n p (crcOf p))[131]? = some hi ∧ (frameBytes n p (crcOf p))[132]? = some lo ∧
      (crcOf p).toNat = hi.toNat * 256 + lo.toNat)

/-- 00_scope.md R10 and 43_session_timeout.md R142, R149: the operation, and what a step adds around it. -/
def Obligations.StepRunsDecodedOperation : Prop :=
  ∀ (s s1 : State) (i : Instr), s.takeInput = .ok s1 → decode (s1.selector s.nextInput.cmd) = .ok i →
    step s = match exec i s1 with
      | .next t => .next (if isPoll i = true ∧ t.seq = .ended then { t with role := .none } else t)
      | .fault f => .fault f
      | .refused r => .refused r

/-- 00_scope.md R9, R14, 60_exceptions.md R171, R172; the form of the inputs is the model's own (log entry 5). That a store is a
list which becomes the whole buffer, and its refusal as `bufferInUse`, are the model's form of U13 (log entry 11, DESIGN CHOICE). -/
def Obligations.EnvironmentPartOfAStep : Prop :=
  ∀ s : State,
    (s.nextInput.supply = none →
      s.takeInput = .ok { s with
        pending := s.pending ++ s.nextInput.arrivals
        elapsed := s.elapsed + s.nextInput.wait
        inputs := s.inputs.tail }) ∧
    (∀ bytes, s.nextInput.supply = some bytes → s.role = .none →
      s.takeInput = .ok { s with
        buf := Memory.ofBytes 0 bytes
        pending := s.pending ++ s.nextInput.arrivals
        elapsed := s.elapsed + s.nextInput.wait
        inputs := s.inputs.tail }) ∧
    (s.nextInput.supply ≠ none → s.role ≠ .none → step s = .refused .bufferInUse)

/-- 00_scope.md R14, 20_memory.md R50, R51; what an unlisted offset reads as is the model's choice (log entry 3). -/
def Obligations.SuppliedStoreReadsAsItsBytes : Prop :=
  ∀ bytes : List Byte,
    (Memory.ofBytes 0 bytes).wf = true ∧
    (∀ (i : Nat) (h : i < bytes.length), (Memory.ofBytes 0 bytes).read i = bytes[i]) ∧
    (∀ i : Nat, bytes.length ≤ i → (Memory.ofBytes 0 bytes).read i = 0x00#8)

/-- 43_session_timeout.md R143, R144; the order is the spec's decision D14, and `RETRY` is not zeroed by decision D13. -/
def Obligations.PollRunsDecodedByte : Prop :=
  ∀ (s : State) (b : Byte) (rest : List Byte) (i : Instr), s.running → s.pending = b :: rest →
    decode ⟨s.role, s.seq, .byte b⟩ = .ok i →
    (s.role = .dl → exec .pollDlByte s = exec i { s with pending := rest, elapsed := 0, trace := s.trace ++ [.trst] }) ∧
    (s.role = .ul → exec .pollUlByte s = exec i { s with pending := rest, elapsed := 0, trace := s.trace ++ [.trst] })

/-- 30_encoding.md R79; the role and state a bare table word is read in are the model's choice (log entry 6). -/
def Obligations.FetchWordRunsFirst : Prop :=
  ∀ (s : State) (w : Nat) (i : Instr), decodeTableWord 8 w = some i →
    step (s.withFetchWord 8 w) =
      onNext (exec i { s with
        role := (tableContext (BitVec.ofNat 8 w)).1
        seq := (tableContext (BitVec.ofNat 8 w)).2
        cap := if capLegal s.curw s.cap then s.cap else 128
        elapsed := 0
        trace := s.trace ++ [.trst] }) finishPoll

/-- 40_crc.md R90, in plain numbers. -/
def Obligations.CrcUpdateEightRounds : Prop :=
  (∀ (acc : Word16) (b : Byte), (crcUpdate acc b).toNat = crcRoundNat^[8] (acc.toNat ^^^ (b.toNat * 256))) ∧
  crcUpdate 0x0000#16 0x00#8 = 0x0000#16 ∧ crcUpdate 0x0000#16 0x31#8 = 0x2672#16

/-- 40_crc.md R90 ("Registers written: none"), R94; the field that shows the returned value is the model's own (log entry 7). -/
def Obligations.CrcUpdateCompletes : Prop :=
  ∀ (acc : Word16) (b : Byte) (s : State), exec (.crcUpdate acc b) s = .next { s with returned := some (crcUpdate acc b) }

/-- 40_crc.md R95 (b), which the spec marks as its own inference. -/
def Obligations.CrcUpdateLinear : Prop :=
  ∀ (a a' : Word16) (b b' : Byte), crcUpdate (a ^^^ a') (b ^^^ b') = crcUpdate a b ^^^ crcUpdate a' b'

/-- 40_crc.md R95: the incremental property, and the residue, which the spec marks as its own inference. -/
def Obligations.CrcIncrementalAndResidue : Prop :=
  (∀ s t : List Byte, crcOf (s ++ t) = crcFold (crcOf s) t) ∧
  (∀ s : List Byte, crcOf (s ++ [highOctet (crcOf s), lowOctet (crcOf s)]) = 0#16)

/-- 20_memory.md R52, R53, and R54 by the spec's decision D6. -/
def Obligations.BufferAccessInAndOutOfRange : Prop :=
  ∀ (s : State) (a : Nat) (v : Byte), s.buf.wf = true →
    (a < s.cap → s.memRead a = .ok (s.buf.read a) ∧
      ∃ m : Memory, s.memWrite a v = .ok { s with buf := m } ∧ m.wf = true ∧ m.read a = v ∧
        ∀ k, k ≠ a → m.read k = s.buf.read k) ∧
    (s.cap ≤ a → s.memRead a = .error (.bufferRange a) ∧ s.memWrite a v = .error (.bufferRange a))

/-- 20_memory.md R50: the buffer is its bytes; the canonical form is the model's own. -/
def Obligations.CanonicalMemoryIsItsContents : Prop :=
  ∀ m m' : Memory, m.wf = true → m'.wf = true → (∀ a, m.read a = m'.read a) → m = m'

/-- 41_receive.md R101 to R104, selection and effect; each equality is also the frame. -/
def Obligations.AwaitTransitions : Prop :=
  ∀ s : State,
    exec .rxAwaitSoh s = .next { s with cnt := 0#8, crc := 0x0000#16, seq := .block } ∧
    exec .rxAwaitEot s = .next { s with trace := s.trace ++ [.tx 0x06#8, .tx 0x06#8], seq := .ended } ∧
    exec .rxAwaitEtb s = .next { s with trace := s.trace ++ [.tx 0x06#8], seq := .ended } ∧
    (∀ b, exec (.rxAwaitOther b) s = .next { s with seq := .abort }) ∧
    decode ⟨.dl, .await, .byte 0x01#8⟩ = .ok .rxAwaitSoh ∧ decode ⟨.dl, .await, .byte 0x04#8⟩ = .ok .rxAwaitEot ∧
    decode ⟨.dl, .await, .byte 0x17#8⟩ = .ok .rxAwaitEtb ∧
    (∀ b : Byte, b ≠ 0x01#8 → b ≠ 0x04#8 → b ≠ 0x17#8 → decode ⟨.dl, .await, .byte b⟩ = .ok (.rxAwaitOther b))

/-- 41_receive.md R105. -/
def Obligations.BlockNumberStored : Prop :=
  ∀ (b : Byte) (s : State),
    decode ⟨.dl, .block, .byte b⟩ = .ok (.rxBlock b) ∧
    exec (.rxBlock b) s = .next { s with blk := b, seq := .block2 }

/-- 41_receive.md R106; no rewind on a mismatch is the spec's decision D34, the wrap of `CUR` its decision D3. -/
def Obligations.ComplementCheckAndDuplicateRewind : Prop :=
  ∀ (b : Byte) (s : State),
    (b.toNat + s.blk.toNat ≠ 255 → exec (.rxBlock2 b) s = .next { s with seq := .abort }) ∧
    (b.toNat + s.blk.toNat = 255 → s.blk = s.last →
      ∃ c : Nat, c < 2 ^ s.curw ∧ (c + 128) % 2 ^ s.curw = s.cur % 2 ^ s.curw ∧
        exec (.rxBlock2 b) s = .next { s with cur := c, seq := .run }) ∧
    (b.toNat + s.blk.toNat = 255 → s.blk ≠ s.last → exec (.rxBlock2 b) s = .next { s with seq := .run })

/-- 41_receive.md R107; the count is compared after the increment by the spec's decision D28, the fault is its decision D6. -/
def Obligations.PayloadByteStoredFoldedCounted : Prop :=
  ∀ (b : Byte) (s : State), s.buf.wf = true →
    (s.cur < s.cap →
      ∃ m : Memory, m.wf = true ∧ m.read s.cur = b ∧ (∀ k, k ≠ s.cur → m.read k = s.buf.read k) ∧
        exec (.rxRun b) s = .next { s with
          crc := crcUpdate s.crc b
          buf := m
          cur := (s.cur + 1) % 2 ^ s.curw
          cnt := s.cnt + 1#8
          seq := if s.cnt = 127#8 then .crc1 else s.seq }) ∧
    (s.cap ≤ s.cur → exec (.rxRun b) s = .fault (.bufferRange s.cur))

/-- 41_receive.md R108, R109; the kept low octet is the spec's decision D29, the wrap of `CUR` its decision D3. -/
def Obligations.CrcTrailerResults : Prop :=
  ∀ (b : Byte) (s : State),
    (∃ r : Word16, r.toNat = b.toNat * 256 + s.rxcrc.toNat % 256 ∧
      exec (.rxCrc1 b) s = .next { s with rxcrc := r, seq := .crc2 }) ∧
    (∃ r : Word16, r.toNat = s.rxcrc.toNat / 256 * 256 + b.toNat ∧
      (r = s.crc → exec (.rxCrc2 b) s =
        .next { s with rxcrc := r, trace := s.trace ++ [.tx 0x06#8], last := s.blk, seq := .await }) ∧
      (r ≠ s.crc → ∃ c : Nat, c < 2 ^ s.curw ∧ (c + 128) % 2 ^ s.curw = s.cur % 2 ^ s.curw ∧
        exec (.rxCrc2 b) s = .next { s with rxcrc := r, trace := s.trace ++ [.tx 0x15#8], cur := c, seq := .await }))

/-- 41_receive.md R110 (the spec's decision D20), 43_session_timeout.md R148, R149. -/
def Obligations.InternalActions : Prop :=
  ∀ s : State,
    (∀ b, exec (.rxTerminal b) s = .next s) ∧
    (15 < s.retry.toNat → exec .retryCheck s = .next { s with seq := .abort }) ∧
    (s.retry.toNat ≤ 15 → exec .retryCheck s = .next s) ∧
    exec .sessionEnd s = .next { s with role := .none }

/-- 60_exceptions.md R161. -/
def Obligations.ProtocolViolationFatalAndSilent : Prop :=
  (∀ (s : State) (b : Byte) (rest : List Byte), s.role = .dl → s.pending = b :: rest →
    ((s.seq = .await ∧ b ≠ 0x01#8 ∧ b ≠ 0x04#8 ∧ b ≠ 0x17#8) ∨ (s.seq = .block2 ∧ b.toNat + s.blk.toNat ≠ 255)) →
    exec .pollDlByte s =
      .next { s with seq := .abort, pending := rest, elapsed := 0, trace := s.trace ++ [.trst] }) ∧
  (∀ (s : State) (b : Byte), ∃ i, decode ⟨.ul, s.seq, .byte b⟩ = .ok i ∧
    ∀ t, exec i s = .next t → s.seq ≠ .abort → t.seq ≠ .abort)

/-- 42_transmit.md R120, R122 and 20_memory.md R56; the arithmetic modulo `2^CURW` is the spec's decision D19. -/
def Obligations.TransmitOffsetForEveryWidth : Prop :=
  ∀ (w cap : Nat) (n : Byte), capLegal w cap = true →
    txOffset w cap n = blockOffset w cap n ∧ blockOffset w cap n % 128 = 0 ∧ blockOffset w cap n + 128 ≤ cap ∧
    (1 ≤ n.toNat → n.toNat ≤ cap / 128 → blockOffset w cap n = 128 * (n.toNat - 1)) ∧
    (15 ≤ w → 1 ≤ n.toNat → rawOffset w n = 128 * (n.toNat - 1))

/-- 42_transmit.md R120 against R121's pure function; one atomic step and the `CRC` register are the spec's decisions D16, D17. -/
def Obligations.SendBlockEmitsFrame : Prop :=
  ∀ (n : Byte) (s : State), capLegal s.curw s.cap = true →
    exec (.txSendBlock n) s = .next (s.sentBlock n) ∧
    (frameBytes n (s.blockPayload n) (crcOf (s.blockPayload n))).length = 133

/-- 42_transmit.md R124, R126. -/
def Obligations.HandshakeAndResendCallSendBlock : Prop :=
  ∀ s : State,
    exec .ulC s = exec (.txSendBlock 1#8) { s with blk := 1#8 } ∧
    (∀ b, exec (.ulOther b) s = exec (.txSendBlock s.blk) s) ∧
    decode ⟨.ul, s.seq, .byte 0x43#8⟩ = .ok .ulC ∧
    (∀ b : Byte, b ≠ 0x43#8 → b ≠ 0x06#8 → decode ⟨.ul, s.seq, .byte b⟩ = .ok (.ulOther b))

/-- 42_transmit.md R124 to R126; the 8-bit counter and its unsigned compare are the spec's decision D18. -/
def Obligations.UploadOperationResults : Prop :=
  ∀ s : State, capLegal s.curw s.cap = true →
    exec .ulC s = .next (({ s with blk := 1#8 } : State).sentBlock 1#8) ∧
    (∀ b, exec (.ulOther b) s = .next (s.sentBlock s.blk)) ∧
    (s.cap / 128 < (s.blk.toNat + 1) % 256 →
      exec .ulAck s = .next { s with blk := s.blk + 1#8, trace := s.trace ++ [.tx 0x04#8], seq := .ended }) ∧
    ((s.blk.toNat + 1) % 256 ≤ s.cap / 128 →
      exec .ulAck s = .next (({ s with blk := s.blk + 1#8 } : State).sentBlock (s.blk + 1#8)))

/-- 42_transmit.md R125 and 70_reset_and_hazards.md R191, which rest on the spec's decision D18. -/
def Obligations.UploadEndsExactlyPastItsLastBlock : Prop :=
  ∀ s : State, capLegal s.curw s.cap = true → s.seq = .await →
    ∃ t, exec .ulAck s = .next t ∧
      (t.seq = .ended ↔ s.blk ≠ 255#8 ∧ s.cap / 128 ≤ s.blk.toNat) ∧
      (255 * 128 ≤ s.cap → t.seq = .await)

/-- 43_session_timeout.md R140, R141; the start values, the first `C` and the timer resets are the spec's decisions D8, D9, D10. -/
def Obligations.StartResults : Prop :=
  ∀ (s : State) (cap : Nat), s.role = .none → cap % 128 = 0 → 128 ≤ cap → cap + 128 ≤ 2 ^ s.curw →
    exec (.startDl cap) s = .next { s with
      cap := cap, role := .dl, seq := .await, retry := 0#8, cur := 0, last := 0#8, blk := 1#8, cnt := 0#8
      crc := 0x0000#16, rxcrc := 0x0000#16, elapsed := 0, trace := s.trace ++ [.tx 0x43#8, .trst] } ∧
    exec (.startUl cap) s = .next { s with
      cap := cap, role := .ul, seq := .await, retry := 0#8, cur := 0, last := 0#8, blk := 1#8, cnt := 0#8
      crc := 0x0000#16, rxcrc := 0x0000#16, elapsed := 0, trace := s.trace ++ [.trst] }

/-- 43_session_timeout.md R140, R141, U1, U5: the refusals are the spec's decisions D4, D23; the order of the checks is log entry 8. -/
def Obligations.StartRefusals : Prop :=
  ∀ (s : State) (cap : Nat),
    (s.role ≠ .none →
      exec (.startDl cap) s = .refused .sessionActive ∧ exec (.startUl cap) s = .refused .sessionActive) ∧
    (s.role = .none → cap % 128 ≠ 0 ∨ cap < 128 ∨ 2 ^ s.curw < cap + 128 →
      exec (.startDl cap) s = .refused .illegalCapacity ∧ exec (.startUl cap) s = .refused .illegalCapacity)

/-- 43_session_timeout.md R143 and 41_receive.md R107; `RETRY` is kept by the spec's decision D13. -/
def Obligations.DownloadByteCompletes : Prop :=
  ∀ (s : State) (b : Byte) (rest : List Byte), s.role = .dl → s.running → s.pending = b :: rest →
    ((s.seq = .run → s.cur < s.cap) →
      ∃ t ev, exec .pollDlByte s = .next t ∧ t.pending = rest ∧ t.elapsed = 0 ∧ t.trace = s.trace ++ .trst :: ev ∧
        t.retry = s.retry ∧ t.role = s.role ∧ t.cap = s.cap ∧ t.inputs = s.inputs ∧
        t.curw = s.curw ∧ t.ulTimeoutCounts = s.ulTimeoutCounts ∧ t.returned = s.returned) ∧
    (s.seq = .run → s.cap ≤ s.cur → exec .pollDlByte s = .fault (.bufferRange s.cur))

/-- 43_session_timeout.md R144 and 42_transmit.md R127 (e); `RETRY` is kept by the spec's decision D13. -/
def Obligations.UploadByteCompletes : Prop :=
  ∀ (s : State) (b : Byte) (rest : List Byte), s.role = .ul → s.running → capLegal s.curw s.cap = true → s.pending = b :: rest →
    ∃ t ev, exec .pollUlByte s = .next t ∧ t.pending = rest ∧ t.elapsed = 0 ∧ t.trace = s.trace ++ .trst :: ev ∧
      t.buf = s.buf ∧ t.cur = s.cur ∧ t.last = s.last ∧ t.cnt = s.cnt ∧ t.rxcrc = s.rxcrc ∧ t.retry = s.retry ∧
      t.role = s.role ∧ t.cap = s.cap ∧ t.inputs = s.inputs ∧ t.curw = s.curw ∧ t.ulTimeoutCounts = s.ulTimeoutCounts ∧
      t.returned = s.returned

/-- 43_session_timeout.md R145, R146, R148; the timer reset and the place of the check are the spec's decisions D11, D15. -/
def Obligations.DownloadIdleResult : Prop :=
  ∀ s : State, s.role = .dl → s.running → s.pending = [] →
    (s.elapsed ≤ 1000 → exec .pollDlIdle s = .next { s with seq := if 15 < s.retry.toNat then .abort else s.seq }) ∧
    (1000 < s.elapsed → exec .pollDlIdle s = .next { s with
      retry := s.retry + 1#8
      elapsed := 0
      trace := s.trace ++ [.tx 0x43#8, .trst]
      seq := if 15 < (s.retry.toNat + 1) % 256 then .abort else s.seq })

/-- 43_session_timeout.md R147, for both values of the parameter the spec leaves OPEN (D12; log entry 2). -/
def Obligations.UploadIdleResult : Prop :=
  ∀ s : State, s.role = .ul → s.running → s.pending = [] →
    (s.elapsed ≤ 1000 ∨ s.ulTimeoutCounts = false →
      exec .pollUlIdle s = .next { s with seq := if 15 < s.retry.toNat then .abort else s.seq }) ∧
    (1000 < s.elapsed → s.ulTimeoutCounts = true → exec .pollUlIdle s = .next { s with
      retry := s.retry + 1#8
      elapsed := 0
      trace := s.trace ++ [.trst]
      seq := if 15 < (s.retry.toNat + 1) % 256 then .abort else s.seq })

/-- 43_session_timeout.md R150; one byte a step and the end at the first empty moment are the spec's decision D21. -/
def Obligations.DrainResult : Prop :=
  ∀ s : State, s.role ≠ .none → s.seq = .abort →
    (∀ b rest, s.pending = b :: rest → exec .drain s = .next { s with pending := rest }) ∧
    (s.pending = [] → exec .drain s = .next { s with role := .none })

/-- 70_reset_and_hazards.md R180, R181: the spec's decision D7. -/
def Obligations.ResetResult : Prop :=
  (∀ s : State, exec .reset s = .next { s with
    role := .none, seq := .await, blk := 0#8, cnt := 0#8, crc := 0#16, rxcrc := 0#16, cur := 0, last := 0#8
    retry := 0#8, cap := 0 }) ∧
  exec .reset State.reset = .next State.reset

/-- 00_scope.md R10, 43_session_timeout.md R142, R150, 60_exceptions.md R171; that such a run is refused is the model's form (log entry 9). -/
def Obligations.PollAndDrainOnlyWhenEnabled : Prop :=
  ∀ s : State,
    (s.role ≠ .dl ∨ s.seq = .abort ∨ s.seq = .ended ∨ s.pending = [] → exec .pollDlByte s = .refused .notEnabled) ∧
    (s.role ≠ .ul ∨ s.seq = .abort ∨ s.seq = .ended ∨ s.pending = [] → exec .pollUlByte s = .refused .notEnabled) ∧
    (s.role ≠ .dl ∨ s.seq = .abort ∨ s.seq = .ended ∨ s.pending ≠ [] → exec .pollDlIdle s = .refused .notEnabled) ∧
    (s.role ≠ .ul ∨ s.seq = .abort ∨ s.seq = .ended ∨ s.pending ≠ [] → exec .pollUlIdle s = .refused .notEnabled) ∧
    (s.role = .none ∨ s.seq ≠ .abort → exec .drain s = .refused .notEnabled)

/-- 10_state.md R36, for the invariants of Safety.lean. -/
def Obligations.ResetMeetsInvariants : Prop :=
  Inv State.reset ∧ PayloadCoherent State.reset

/-- 10_state.md R22, R25, R28, R29, 42_transmit.md R127 (c), 43_session_timeout.md R149: the reachable values, kept by every step. -/
def Obligations.StepKeepsInvariant : Prop :=
  ∀ s t : State, Inv s → step s = .next t → Inv t

/-- 41_receive.md R101, R106, R107 with 40_crc.md R92: what is compared with the wire is the CRC of what was stored. -/
def Obligations.StepKeepsPayloadCoherence : Prop :=
  ∀ s t : State, Inv s → PayloadCoherent s → step s = .next t → PayloadCoherent t

/-- 41_receive.md R109 and 60_exceptions.md R162, read through the stored bytes. -/
def Obligations.AckExactlyForMatchingStoredPayload : Prop :=
  ∀ (s : State) (b : Byte), Inv s → PayloadCoherent s → s.role = .dl → s.seq = .crc2 →
    (joinOctets (highOctet s.rxcrc) b = crcOf (s.buf.slice (s.cur - 128) 128) →
      exec (.rxCrc2 b) s = .next { s with
        rxcrc := joinOctets (highOctet s.rxcrc) b, trace := s.trace ++ [.tx 0x06#8], last := s.blk, seq := .await }) ∧
    (joinOctets (highOctet s.rxcrc) b ≠ crcOf (s.buf.slice (s.cur - 128) 128) →
      exec (.rxCrc2 b) s = .next { s with
        rxcrc := joinOctets (highOctet s.rxcrc) b, trace := s.trace ++ [.tx 0x15#8], cur := s.cur - 128, seq := .await })

/-- 20_memory.md R54 (the spec's decision D6), 42_transmit.md R120, 70_reset_and_hazards.md R187, R188. -/
def Obligations.FaultExactlyForPayloadPastTheBuffer : Prop :=
  ∀ (s : State) (f : Fault), Inv s →
    (step s = .fault f ↔
      s.role = .dl ∧ s.seq = .run ∧ s.nextInput.cmd = none ∧ s.nextInput.supply = none ∧
      s.pending ++ s.nextInput.arrivals ≠ [] ∧ s.cap ≤ s.cur ∧ f = .bufferRange s.cur)

/-- 00_scope.md R10, R11, 43_session_timeout.md R140, R141, U13, U14; the model's own are the order of the two start
checks (log entry 8, DEDUCED), `bufferInUse` before every command (log entry 11) and the refusal without a session (log entry 9). -/
def Obligations.RefusalsOfAStep : Prop :=
  ∀ (s : State) (r : Refusal), Inv s →
    (step s = .refused r ↔
      (s.role ≠ .none ∧ s.nextInput.supply ≠ none ∧ r = .bufferInUse) ∨
      (s.role ≠ .none ∧ s.nextInput.supply = none ∧
        (∃ cap, s.nextInput.cmd = some (.startDl cap) ∨ s.nextInput.cmd = some (.startUl cap)) ∧ r = .sessionActive) ∨
      (s.role = .none ∧
        (∃ cap, (s.nextInput.cmd = some (.startDl cap) ∨ s.nextInput.cmd = some (.startUl cap)) ∧ capLegal s.curw cap = false) ∧
        r = .illegalCapacity) ∨
      (s.role = .none ∧ s.nextInput.cmd = none ∧ r = .notEnabled))

/-- 20_memory.md R53: "Used only by the `RUN` transition", "changes no other byte". -/
def Obligations.BufferWrittenOnlyByPayload : Prop :=
  ∀ s t : State, Inv s → step s = .next t → s.nextInput.supply = none →
    (∀ b rest, s.role = .dl → s.seq = .run → s.nextInput.cmd = none → s.pending ++ s.nextInput.arrivals = b :: rest →
      s.cur < s.cap ∧ t.buf.read s.cur = b ∧ ∀ k, k ≠ s.cur → t.buf.read k = s.buf.read k) ∧
    (s.role ≠ .dl ∨ s.seq ≠ .run ∨ s.nextInput.cmd ≠ none ∨ s.pending ++ s.nextInput.arrivals = [] → t.buf = s.buf)

/-- 10_state.md R26: "Written only by `CRC2` on a CRC match", besides the reset and the start commands. -/
def Obligations.LastChangesOnlyByCommit : Prop :=
  ∀ s t : State, step s = .next t → t.last ≠ s.last →
    s.nextInput.cmd ≠ none ∨
    (s.role = .dl ∧ s.seq = .crc2 ∧ t.last = s.blk ∧ t.trace = s.trace ++ [.trst, .tx 0x06#8] ∧
      ∃ b rest, s.pending ++ s.nextInput.arrivals = b :: rest ∧ joinOctets (highOctet s.rxcrc) b = s.crc)

/-- 10_state.md R28, R29 and 43_session_timeout.md R152 (the spec's decision D13). -/
def Obligations.SessionKeepsRoleCapacityAndCountsUp : Prop :=
  ∀ s t : State, Inv s → step s = .next t → s.role ≠ .none → t.role ≠ .none →
    t.role = s.role ∧ t.cap = s.cap ∧ s.retry.toNat ≤ t.retry.toNat ∧ t.retry.toNat ≤ s.retry.toNat + 1

/-- 00_scope.md R13: "A session is over when `ROLE = NONE` again". -/
def Obligations.SessionClosesOnlyByEndDrainOrReset : Prop :=
  ∀ s t : State, step s = .next t → s.role ≠ .none → t.role = .none →
    s.nextInput.cmd = some .reset ∨ t.seq = .ended ∨
    (s.seq = .abort ∧ t.seq = .abort ∧ s.pending ++ s.nextInput.arrivals = [])

/-- 20_memory.md R57, 30_encoding.md R70, R81. -/
def Obligations.TraceGrowsAndDownloadSendsOnlyThreeCodes : Prop :=
  ∀ s t : State, step s = .next t →
    ∃ ev, t.trace = s.trace ++ ev ∧
      (s.role ≠ .ul → ∀ b, .tx b ∈ ev → b = 0x06#8 ∨ b = 0x15#8 ∨ b = 0x43#8)

/-- 42_transmit.md R120, R125, R127 (d), 30_encoding.md R81. -/
def Obligations.UploadSendsOnlyFramesAndEot : Prop :=
  ∀ s t : State, Inv s → s.role = .ul → step s = .next t →
    ∃ ev, t.trace = s.trace ++ ev ∧
      (ev = [] ∨ ev = [.trst] ∨ (ev = [.trst, .tx 0x04#8] ∧ t.seq = .ended ∧ t.role = .none) ∨
        ev = .trst :: (frameBytes t.blk (s.blockPayload t.blk) (crcOf (s.blockPayload t.blk))).map .tx)

/-- 60_exceptions.md R171, 20_memory.md R60: bytes are taken in arrival order, one a step. -/
def Obligations.BytesTakenInArrivalOrder : Prop :=
  ∀ s t : State, step s = .next t →
    t.pending = s.pending ++ s.nextInput.arrivals ∨
    (s.nextInput.cmd = none ∧ ∃ b, s.pending ++ s.nextInput.arrivals = b :: t.pending)

/-- 60_exceptions.md R172, 43_session_timeout.md R151. -/
def Obligations.TimerFollowsItsResets : Prop :=
  ∀ s t : State, step s = .next t →
    ∃ ev, t.trace = s.trace ++ ev ∧
      ((.trst ∈ ev ∧ t.elapsed = 0) ∨ (.trst ∉ ev ∧ t.elapsed = s.elapsed + s.nextInput.wait))

/-- 43_session_timeout.md R142, R143, R144, 60_exceptions.md R166 (1). -/
def Obligations.ByteReadOnlyWithItsTimerReset : Prop :=
  ∀ (s t : State) (b : Byte) (rest : List Byte), s.running → s.nextInput.cmd = none →
    s.pending ++ s.nextInput.arrivals = b :: rest → step s = .next t →
    t.pending = rest ∧ t.retry = s.retry ∧ t.elapsed = 0 ∧ ∃ ev, t.trace = s.trace ++ .trst :: ev

/-- 00_scope.md R6, R12; the inputs and the returned value are the model's own (log entries 5 and 7). -/
def Obligations.LaunchParameterAndInputs : Prop :=
  ∀ s t : State, step s = .next t →
    t.curw = s.curw ∧ t.ulTimeoutCounts = s.ulTimeoutCounts ∧ t.returned = s.returned ∧ t.inputs = s.inputs.tail

/-- 43_session_timeout.md R150, 60_exceptions.md R167, R168. -/
def Obligations.AbortOnlyDrains : Prop :=
  ∀ s t : State, s.role ≠ .none → s.seq = .abort → s.nextInput.cmd ≠ some .reset → step s = .next t →
    t = { s with
      role := t.role, pending := t.pending, elapsed := s.elapsed + s.nextInput.wait, inputs := s.inputs.tail } ∧
    ((∃ b, s.pending ++ s.nextInput.arrivals = b :: t.pending ∧ t.role = s.role) ∨
      (s.pending ++ s.nextInput.arrivals = [] ∧ t.pending = [] ∧ t.role = .none))

/-- 43_session_timeout.md R148 ("After exactly 16 consecutive silent polling iterations"), R145; 90_conflicts.md C4. -/
def Obligations.SixteenTimeoutsAbort : Prop :=
  ∀ (s : State) (waits : List Nat), s.role = .dl → s.running → s.retry = 0#8 → s.pending = [] →
    waits.length = 16 → (∀ w ∈ waits, 1000 < w) →
    s.inputs = waits.map (fun w => { supply := none, arrivals := [], wait := w, cmd := none }) →
    Host.Core.run Sys2Proof.core 16 s = .next { s with
      seq := .abort
      retry := 16#8
      elapsed := 0
      trace := s.trace ++ (List.replicate 16 [TraceEvent.tx 0x43#8, TraceEvent.trst]).flatten
      inputs := [] } ∧
    ∀ k, k ≤ 15 → ∃ t : State, Host.Core.run Sys2Proof.core k s = .next t ∧ t.seq = s.seq ∧ t.retry.toNat = k

/-- 41_receive.md R100 to R109, 60_exceptions.md R162, R164, 70_reset_and_hazards.md R190; the premises keep the cursor from wrapping (R187). -/
def Obligations.FrameReceivedCommitsOrRejects : Prop :=
  ∀ (s : State) (n : Byte) (p rest : List Byte) (c : Word16) (base : Nat),
    s.buf.wf = true → s.role = .dl → s.seq = .await → capLegal s.curw s.cap = true → p.length = 128 →
    s.pending = frameBytes n p c ++ rest → (∀ e ∈ s.inputs, e.cmd = none ∧ e.supply = none) →
    s.cur = (if n = s.last then base + 128 else base) → base + 128 ≤ s.cap →
    ∃ t : State, Host.Core.run Sys2Proof.core 133 s = .next t ∧
      t.role = .dl ∧ t.seq = .await ∧ t.blk = n ∧ t.cnt = 128#8 ∧ t.crc = crcOf p ∧ t.rxcrc = c ∧
      t.retry = s.retry ∧ t.cap = s.cap ∧ t.curw = s.curw ∧ t.ulTimeoutCounts = s.ulTimeoutCounts ∧
      t.returned = s.returned ∧ t.elapsed = 0 ∧
      t.cur = (if c = crcOf p then base + 128 else base) ∧
      t.last = (if c = crcOf p then n else s.last) ∧
      t.buf.wf = true ∧ (∀ i, i < 128 → p[i]? = some (t.buf.read (base + i))) ∧
      (∀ k, k < base ∨ base + 128 ≤ k → t.buf.read k = s.buf.read k) ∧
      t.pending = rest ++ (s.inputs.take 133).flatMap (fun e => e.arrivals) ∧ t.inputs = s.inputs.drop 133 ∧
      t.trace = s.trace ++ List.replicate 133 .trst ++ [.tx (if c = crcOf p then 0x06#8 else 0x15#8)]

/-- 20_memory.md R62: "`receive(frame)` followed by `transmit(same block number)` from the written buffer reproduces the
original 128 payload bytes", for frames stored at the offset the transmitter computes for their number. -/
def Obligations.RoundTripThroughBuffer : Prop :=
  ∀ (s : State) (n : Byte) (p rest : List Byte) (base : Nat),
    s.buf.wf = true → s.role = .dl → s.seq = .await → capLegal s.curw s.cap = true → p.length = 128 →
    s.pending = frameBytes n p (crcOf p) ++ rest → (∀ e ∈ s.inputs, e.cmd = none ∧ e.supply = none) →
    s.cur = (if n = s.last then base + 128 else base) → base + 128 ≤ s.cap →
    ∃ t : State, Host.Core.run Sys2Proof.core 133 s = .next t ∧
      ∀ u : State, u.buf = t.buf → capLegal u.curw u.cap = true → blockOffset u.curw u.cap n = base →
        exec (.txSendBlock n) u = .next { u with
          crc := crcOf p
          trace := u.trace ++ (frameBytes n p (crcOf p)).map .tx }
end

