-- ==== Sys2Proof/Laws/Crc.lean ====
section
/-! SUPPORT. The unfolding lemmas of the CRC of a sequence (40_crc.md rule R92). -/

namespace Sys2Proof.Machine

@[simp] theorem crcFold_nil (a : Word16) : crcFold a [] = a := rfl

@[simp] theorem crcFold_cons (a : Word16) (b : Byte) (l : List Byte) : crcFold a (b :: l) = crcFold (crcUpdate a b) l := rfl

@[simp] theorem crcOf_nil : crcOf [] = 0#16 := rfl

/-- One byte more at a sequence's end is one update more. -/
theorem crcOf_concat (l : List Byte) (b : Byte) : crcOf (l ++ [b]) = crcUpdate (crcOf l) b := by
  simp [crcOf, crcFold, List.foldl_append]

end Sys2Proof.Machine
end

