-- ==== Sys2Proof/Laws/State.lean ====
section
/-! SUPPORT. One lemma for each field under each update of the state, true by rfl: no later proof unfolds a record update. -/

namespace Sys2Proof.Machine

@[simp] theorem State.setSeq_seq (s : State) (v : SeqState) : (s.setSeq v).seq = v := rfl
@[simp] theorem State.setSeq_blk (s : State) (v : SeqState) : (s.setSeq v).blk = s.blk := rfl
@[simp] theorem State.setSeq_cnt (s : State) (v : SeqState) : (s.setSeq v).cnt = s.cnt := rfl
@[simp] theorem State.setSeq_crc (s : State) (v : SeqState) : (s.setSeq v).crc = s.crc := rfl
@[simp] theorem State.setSeq_rxcrc (s : State) (v : SeqState) : (s.setSeq v).rxcrc = s.rxcrc := rfl
@[simp] theorem State.setSeq_cur (s : State) (v : SeqState) : (s.setSeq v).cur = s.cur := rfl
@[simp] theorem State.setSeq_last (s : State) (v : SeqState) : (s.setSeq v).last = s.last := rfl
@[simp] theorem State.setSeq_retry (s : State) (v : SeqState) : (s.setSeq v).retry = s.retry := rfl
@[simp] theorem State.setSeq_cap (s : State) (v : SeqState) : (s.setSeq v).cap = s.cap := rfl
@[simp] theorem State.setSeq_role (s : State) (v : SeqState) : (s.setSeq v).role = s.role := rfl
@[simp] theorem State.setSeq_buf (s : State) (v : SeqState) : (s.setSeq v).buf = s.buf := rfl
@[simp] theorem State.setSeq_pending (s : State) (v : SeqState) : (s.setSeq v).pending = s.pending := rfl
@[simp] theorem State.setSeq_elapsed (s : State) (v : SeqState) : (s.setSeq v).elapsed = s.elapsed := rfl
@[simp] theorem State.setSeq_trace (s : State) (v : SeqState) : (s.setSeq v).trace = s.trace := rfl
@[simp] theorem State.setSeq_curw (s : State) (v : SeqState) : (s.setSeq v).curw = s.curw := rfl
@[simp] theorem State.setSeq_ulTimeoutCounts (s : State) (v : SeqState) : (s.setSeq v).ulTimeoutCounts = s.ulTimeoutCounts := rfl
@[simp] theorem State.setSeq_returned (s : State) (v : SeqState) : (s.setSeq v).returned = s.returned := rfl
@[simp] theorem State.setSeq_inputs (s : State) (v : SeqState) : (s.setSeq v).inputs = s.inputs := rfl

@[simp] theorem State.setBlk_seq (s : State) (v : Byte) : (s.setBlk v).seq = s.seq := rfl
@[simp] theorem State.setBlk_blk (s : State) (v : Byte) : (s.setBlk v).blk = v := rfl
@[simp] theorem State.setBlk_cnt (s : State) (v : Byte) : (s.setBlk v).cnt = s.cnt := rfl
@[simp] theorem State.setBlk_crc (s : State) (v : Byte) : (s.setBlk v).crc = s.crc := rfl
@[simp] theorem State.setBlk_rxcrc (s : State) (v : Byte) : (s.setBlk v).rxcrc = s.rxcrc := rfl
@[simp] theorem State.setBlk_cur (s : State) (v : Byte) : (s.setBlk v).cur = s.cur := rfl
@[simp] theorem State.setBlk_last (s : State) (v : Byte) : (s.setBlk v).last = s.last := rfl
@[simp] theorem State.setBlk_retry (s : State) (v : Byte) : (s.setBlk v).retry = s.retry := rfl
@[simp] theorem State.setBlk_cap (s : State) (v : Byte) : (s.setBlk v).cap = s.cap := rfl
@[simp] theorem State.setBlk_role (s : State) (v : Byte) : (s.setBlk v).role = s.role := rfl
@[simp] theorem State.setBlk_buf (s : State) (v : Byte) : (s.setBlk v).buf = s.buf := rfl
@[simp] theorem State.setBlk_pending (s : State) (v : Byte) : (s.setBlk v).pending = s.pending := rfl
@[simp] theorem State.setBlk_elapsed (s : State) (v : Byte) : (s.setBlk v).elapsed = s.elapsed := rfl
@[simp] theorem State.setBlk_trace (s : State) (v : Byte) : (s.setBlk v).trace = s.trace := rfl
@[simp] theorem State.setBlk_curw (s : State) (v : Byte) : (s.setBlk v).curw = s.curw := rfl
@[simp] theorem State.setBlk_ulTimeoutCounts (s : State) (v : Byte) : (s.setBlk v).ulTimeoutCounts = s.ulTimeoutCounts := rfl
@[simp] theorem State.setBlk_returned (s : State) (v : Byte) : (s.setBlk v).returned = s.returned := rfl
@[simp] theorem State.setBlk_inputs (s : State) (v : Byte) : (s.setBlk v).inputs = s.inputs := rfl

@[simp] theorem State.setCnt_seq (s : State) (v : Byte) : (s.setCnt v).seq = s.seq := rfl
@[simp] theorem State.setCnt_blk (s : State) (v : Byte) : (s.setCnt v).blk = s.blk := rfl
@[simp] theorem State.setCnt_cnt (s : State) (v : Byte) : (s.setCnt v).cnt = v := rfl
@[simp] theorem State.setCnt_crc (s : State) (v : Byte) : (s.setCnt v).crc = s.crc := rfl
@[simp] theorem State.setCnt_rxcrc (s : State) (v : Byte) : (s.setCnt v).rxcrc = s.rxcrc := rfl
@[simp] theorem State.setCnt_cur (s : State) (v : Byte) : (s.setCnt v).cur = s.cur := rfl
@[simp] theorem State.setCnt_last (s : State) (v : Byte) : (s.setCnt v).last = s.last := rfl
@[simp] theorem State.setCnt_retry (s : State) (v : Byte) : (s.setCnt v).retry = s.retry := rfl
@[simp] theorem State.setCnt_cap (s : State) (v : Byte) : (s.setCnt v).cap = s.cap := rfl
@[simp] theorem State.setCnt_role (s : State) (v : Byte) : (s.setCnt v).role = s.role := rfl
@[simp] theorem State.setCnt_buf (s : State) (v : Byte) : (s.setCnt v).buf = s.buf := rfl
@[simp] theorem State.setCnt_pending (s : State) (v : Byte) : (s.setCnt v).pending = s.pending := rfl
@[simp] theorem State.setCnt_elapsed (s : State) (v : Byte) : (s.setCnt v).elapsed = s.elapsed := rfl
@[simp] theorem State.setCnt_trace (s : State) (v : Byte) : (s.setCnt v).trace = s.trace := rfl
@[simp] theorem State.setCnt_curw (s : State) (v : Byte) : (s.setCnt v).curw = s.curw := rfl
@[simp] theorem State.setCnt_ulTimeoutCounts (s : State) (v : Byte) : (s.setCnt v).ulTimeoutCounts = s.ulTimeoutCounts := rfl
@[simp] theorem State.setCnt_returned (s : State) (v : Byte) : (s.setCnt v).returned = s.returned := rfl
@[simp] theorem State.setCnt_inputs (s : State) (v : Byte) : (s.setCnt v).inputs = s.inputs := rfl

@[simp] theorem State.setCrc_seq (s : State) (v : Word16) : (s.setCrc v).seq = s.seq := rfl
@[simp] theorem State.setCrc_blk (s : State) (v : Word16) : (s.setCrc v).blk = s.blk := rfl
@[simp] theorem State.setCrc_cnt (s : State) (v : Word16) : (s.setCrc v).cnt = s.cnt := rfl
@[simp] theorem State.setCrc_crc (s : State) (v : Word16) : (s.setCrc v).crc = v := rfl
@[simp] theorem State.setCrc_rxcrc (s : State) (v : Word16) : (s.setCrc v).rxcrc = s.rxcrc := rfl
@[simp] theorem State.setCrc_cur (s : State) (v : Word16) : (s.setCrc v).cur = s.cur := rfl
@[simp] theorem State.setCrc_last (s : State) (v : Word16) : (s.setCrc v).last = s.last := rfl
@[simp] theorem State.setCrc_retry (s : State) (v : Word16) : (s.setCrc v).retry = s.retry := rfl
@[simp] theorem State.setCrc_cap (s : State) (v : Word16) : (s.setCrc v).cap = s.cap := rfl
@[simp] theorem State.setCrc_role (s : State) (v : Word16) : (s.setCrc v).role = s.role := rfl
@[simp] theorem State.setCrc_buf (s : State) (v : Word16) : (s.setCrc v).buf = s.buf := rfl
@[simp] theorem State.setCrc_pending (s : State) (v : Word16) : (s.setCrc v).pending = s.pending := rfl
@[simp] theorem State.setCrc_elapsed (s : State) (v : Word16) : (s.setCrc v).elapsed = s.elapsed := rfl
@[simp] theorem State.setCrc_trace (s : State) (v : Word16) : (s.setCrc v).trace = s.trace := rfl
@[simp] theorem State.setCrc_curw (s : State) (v : Word16) : (s.setCrc v).curw = s.curw := rfl
@[simp] theorem State.setCrc_ulTimeoutCounts (s : State) (v : Word16) : (s.setCrc v).ulTimeoutCounts = s.ulTimeoutCounts := rfl
@[simp] theorem State.setCrc_returned (s : State) (v : Word16) : (s.setCrc v).returned = s.returned := rfl
@[simp] theorem State.setCrc_inputs (s : State) (v : Word16) : (s.setCrc v).inputs = s.inputs := rfl

@[simp] theorem State.setRxcrc_seq (s : State) (v : Word16) : (s.setRxcrc v).seq = s.seq := rfl
@[simp] theorem State.setRxcrc_blk (s : State) (v : Word16) : (s.setRxcrc v).blk = s.blk := rfl
@[simp] theorem State.setRxcrc_cnt (s : State) (v : Word16) : (s.setRxcrc v).cnt = s.cnt := rfl
@[simp] theorem State.setRxcrc_crc (s : State) (v : Word16) : (s.setRxcrc v).crc = s.crc := rfl
@[simp] theorem State.setRxcrc_rxcrc (s : State) (v : Word16) : (s.setRxcrc v).rxcrc = v := rfl
@[simp] theorem State.setRxcrc_cur (s : State) (v : Word16) : (s.setRxcrc v).cur = s.cur := rfl
@[simp] theorem State.setRxcrc_last (s : State) (v : Word16) : (s.setRxcrc v).last = s.last := rfl
@[simp] theorem State.setRxcrc_retry (s : State) (v : Word16) : (s.setRxcrc v).retry = s.retry := rfl
@[simp] theorem State.setRxcrc_cap (s : State) (v : Word16) : (s.setRxcrc v).cap = s.cap := rfl
@[simp] theorem State.setRxcrc_role (s : State) (v : Word16) : (s.setRxcrc v).role = s.role := rfl
@[simp] theorem State.setRxcrc_buf (s : State) (v : Word16) : (s.setRxcrc v).buf = s.buf := rfl
@[simp] theorem State.setRxcrc_pending (s : State) (v : Word16) : (s.setRxcrc v).pending = s.pending := rfl
@[simp] theorem State.setRxcrc_elapsed (s : State) (v : Word16) : (s.setRxcrc v).elapsed = s.elapsed := rfl
@[simp] theorem State.setRxcrc_trace (s : State) (v : Word16) : (s.setRxcrc v).trace = s.trace := rfl
@[simp] theorem State.setRxcrc_curw (s : State) (v : Word16) : (s.setRxcrc v).curw = s.curw := rfl
@[simp] theorem State.setRxcrc_ulTimeoutCounts (s : State) (v : Word16) : (s.setRxcrc v).ulTimeoutCounts = s.ulTimeoutCounts := rfl
@[simp] theorem State.setRxcrc_returned (s : State) (v : Word16) : (s.setRxcrc v).returned = s.returned := rfl
@[simp] theorem State.setRxcrc_inputs (s : State) (v : Word16) : (s.setRxcrc v).inputs = s.inputs := rfl

@[simp] theorem State.setCur_seq (s : State) (v : Nat) : (s.setCur v).seq = s.seq := rfl
@[simp] theorem State.setCur_blk (s : State) (v : Nat) : (s.setCur v).blk = s.blk := rfl
@[simp] theorem State.setCur_cnt (s : State) (v : Nat) : (s.setCur v).cnt = s.cnt := rfl
@[simp] theorem State.setCur_crc (s : State) (v : Nat) : (s.setCur v).crc = s.crc := rfl
@[simp] theorem State.setCur_rxcrc (s : State) (v : Nat) : (s.setCur v).rxcrc = s.rxcrc := rfl
@[simp] theorem State.setCur_cur (s : State) (v : Nat) : (s.setCur v).cur = v := rfl
@[simp] theorem State.setCur_last (s : State) (v : Nat) : (s.setCur v).last = s.last := rfl
@[simp] theorem State.setCur_retry (s : State) (v : Nat) : (s.setCur v).retry = s.retry := rfl
@[simp] theorem State.setCur_cap (s : State) (v : Nat) : (s.setCur v).cap = s.cap := rfl
@[simp] theorem State.setCur_role (s : State) (v : Nat) : (s.setCur v).role = s.role := rfl
@[simp] theorem State.setCur_buf (s : State) (v : Nat) : (s.setCur v).buf = s.buf := rfl
@[simp] theorem State.setCur_pending (s : State) (v : Nat) : (s.setCur v).pending = s.pending := rfl
@[simp] theorem State.setCur_elapsed (s : State) (v : Nat) : (s.setCur v).elapsed = s.elapsed := rfl
@[simp] theorem State.setCur_trace (s : State) (v : Nat) : (s.setCur v).trace = s.trace := rfl
@[simp] theorem State.setCur_curw (s : State) (v : Nat) : (s.setCur v).curw = s.curw := rfl
@[simp] theorem State.setCur_ulTimeoutCounts (s : State) (v : Nat) : (s.setCur v).ulTimeoutCounts = s.ulTimeoutCounts := rfl
@[simp] theorem State.setCur_returned (s : State) (v : Nat) : (s.setCur v).returned = s.returned := rfl
@[simp] theorem State.setCur_inputs (s : State) (v : Nat) : (s.setCur v).inputs = s.inputs := rfl

@[simp] theorem State.setLast_seq (s : State) (v : Byte) : (s.setLast v).seq = s.seq := rfl
@[simp] theorem State.setLast_blk (s : State) (v : Byte) : (s.setLast v).blk = s.blk := rfl
@[simp] theorem State.setLast_cnt (s : State) (v : Byte) : (s.setLast v).cnt = s.cnt := rfl
@[simp] theorem State.setLast_crc (s : State) (v : Byte) : (s.setLast v).crc = s.crc := rfl
@[simp] theorem State.setLast_rxcrc (s : State) (v : Byte) : (s.setLast v).rxcrc = s.rxcrc := rfl
@[simp] theorem State.setLast_cur (s : State) (v : Byte) : (s.setLast v).cur = s.cur := rfl
@[simp] theorem State.setLast_last (s : State) (v : Byte) : (s.setLast v).last = v := rfl
@[simp] theorem State.setLast_retry (s : State) (v : Byte) : (s.setLast v).retry = s.retry := rfl
@[simp] theorem State.setLast_cap (s : State) (v : Byte) : (s.setLast v).cap = s.cap := rfl
@[simp] theorem State.setLast_role (s : State) (v : Byte) : (s.setLast v).role = s.role := rfl
@[simp] theorem State.setLast_buf (s : State) (v : Byte) : (s.setLast v).buf = s.buf := rfl
@[simp] theorem State.setLast_pending (s : State) (v : Byte) : (s.setLast v).pending = s.pending := rfl
@[simp] theorem State.setLast_elapsed (s : State) (v : Byte) : (s.setLast v).elapsed = s.elapsed := rfl
@[simp] theorem State.setLast_trace (s : State) (v : Byte) : (s.setLast v).trace = s.trace := rfl
@[simp] theorem State.setLast_curw (s : State) (v : Byte) : (s.setLast v).curw = s.curw := rfl
@[simp] theorem State.setLast_ulTimeoutCounts (s : State) (v : Byte) : (s.setLast v).ulTimeoutCounts = s.ulTimeoutCounts := rfl
@[simp] theorem State.setLast_returned (s : State) (v : Byte) : (s.setLast v).returned = s.returned := rfl
@[simp] theorem State.setLast_inputs (s : State) (v : Byte) : (s.setLast v).inputs = s.inputs := rfl

@[simp] theorem State.setRetry_seq (s : State) (v : Byte) : (s.setRetry v).seq = s.seq := rfl
@[simp] theorem State.setRetry_blk (s : State) (v : Byte) : (s.setRetry v).blk = s.blk := rfl
@[simp] theorem State.setRetry_cnt (s : State) (v : Byte) : (s.setRetry v).cnt = s.cnt := rfl
@[simp] theorem State.setRetry_crc (s : State) (v : Byte) : (s.setRetry v).crc = s.crc := rfl
@[simp] theorem State.setRetry_rxcrc (s : State) (v : Byte) : (s.setRetry v).rxcrc = s.rxcrc := rfl
@[simp] theorem State.setRetry_cur (s : State) (v : Byte) : (s.setRetry v).cur = s.cur := rfl
@[simp] theorem State.setRetry_last (s : State) (v : Byte) : (s.setRetry v).last = s.last := rfl
@[simp] theorem State.setRetry_retry (s : State) (v : Byte) : (s.setRetry v).retry = v := rfl
@[simp] theorem State.setRetry_cap (s : State) (v : Byte) : (s.setRetry v).cap = s.cap := rfl
@[simp] theorem State.setRetry_role (s : State) (v : Byte) : (s.setRetry v).role = s.role := rfl
@[simp] theorem State.setRetry_buf (s : State) (v : Byte) : (s.setRetry v).buf = s.buf := rfl
@[simp] theorem State.setRetry_pending (s : State) (v : Byte) : (s.setRetry v).pending = s.pending := rfl
@[simp] theorem State.setRetry_elapsed (s : State) (v : Byte) : (s.setRetry v).elapsed = s.elapsed := rfl
@[simp] theorem State.setRetry_trace (s : State) (v : Byte) : (s.setRetry v).trace = s.trace := rfl
@[simp] theorem State.setRetry_curw (s : State) (v : Byte) : (s.setRetry v).curw = s.curw := rfl
@[simp] theorem State.setRetry_ulTimeoutCounts (s : State) (v : Byte) : (s.setRetry v).ulTimeoutCounts = s.ulTimeoutCounts := rfl
@[simp] theorem State.setRetry_returned (s : State) (v : Byte) : (s.setRetry v).returned = s.returned := rfl
@[simp] theorem State.setRetry_inputs (s : State) (v : Byte) : (s.setRetry v).inputs = s.inputs := rfl

@[simp] theorem State.setCap_seq (s : State) (v : Nat) : (s.setCap v).seq = s.seq := rfl
@[simp] theorem State.setCap_blk (s : State) (v : Nat) : (s.setCap v).blk = s.blk := rfl
@[simp] theorem State.setCap_cnt (s : State) (v : Nat) : (s.setCap v).cnt = s.cnt := rfl
@[simp] theorem State.setCap_crc (s : State) (v : Nat) : (s.setCap v).crc = s.crc := rfl
@[simp] theorem State.setCap_rxcrc (s : State) (v : Nat) : (s.setCap v).rxcrc = s.rxcrc := rfl
@[simp] theorem State.setCap_cur (s : State) (v : Nat) : (s.setCap v).cur = s.cur := rfl
@[simp] theorem State.setCap_last (s : State) (v : Nat) : (s.setCap v).last = s.last := rfl
@[simp] theorem State.setCap_retry (s : State) (v : Nat) : (s.setCap v).retry = s.retry := rfl
@[simp] theorem State.setCap_cap (s : State) (v : Nat) : (s.setCap v).cap = v := rfl
@[simp] theorem State.setCap_role (s : State) (v : Nat) : (s.setCap v).role = s.role := rfl
@[simp] theorem State.setCap_buf (s : State) (v : Nat) : (s.setCap v).buf = s.buf := rfl
@[simp] theorem State.setCap_pending (s : State) (v : Nat) : (s.setCap v).pending = s.pending := rfl
@[simp] theorem State.setCap_elapsed (s : State) (v : Nat) : (s.setCap v).elapsed = s.elapsed := rfl
@[simp] theorem State.setCap_trace (s : State) (v : Nat) : (s.setCap v).trace = s.trace := rfl
@[simp] theorem State.setCap_curw (s : State) (v : Nat) : (s.setCap v).curw = s.curw := rfl
@[simp] theorem State.setCap_ulTimeoutCounts (s : State) (v : Nat) : (s.setCap v).ulTimeoutCounts = s.ulTimeoutCounts := rfl
@[simp] theorem State.setCap_returned (s : State) (v : Nat) : (s.setCap v).returned = s.returned := rfl
@[simp] theorem State.setCap_inputs (s : State) (v : Nat) : (s.setCap v).inputs = s.inputs := rfl

@[simp] theorem State.setRole_seq (s : State) (v : Role) : (s.setRole v).seq = s.seq := rfl
@[simp] theorem State.setRole_blk (s : State) (v : Role) : (s.setRole v).blk = s.blk := rfl
@[simp] theorem State.setRole_cnt (s : State) (v : Role) : (s.setRole v).cnt = s.cnt := rfl
@[simp] theorem State.setRole_crc (s : State) (v : Role) : (s.setRole v).crc = s.crc := rfl
@[simp] theorem State.setRole_rxcrc (s : State) (v : Role) : (s.setRole v).rxcrc = s.rxcrc := rfl
@[simp] theorem State.setRole_cur (s : State) (v : Role) : (s.setRole v).cur = s.cur := rfl
@[simp] theorem State.setRole_last (s : State) (v : Role) : (s.setRole v).last = s.last := rfl
@[simp] theorem State.setRole_retry (s : State) (v : Role) : (s.setRole v).retry = s.retry := rfl
@[simp] theorem State.setRole_cap (s : State) (v : Role) : (s.setRole v).cap = s.cap := rfl
@[simp] theorem State.setRole_role (s : State) (v : Role) : (s.setRole v).role = v := rfl
@[simp] theorem State.setRole_buf (s : State) (v : Role) : (s.setRole v).buf = s.buf := rfl
@[simp] theorem State.setRole_pending (s : State) (v : Role) : (s.setRole v).pending = s.pending := rfl
@[simp] theorem State.setRole_elapsed (s : State) (v : Role) : (s.setRole v).elapsed = s.elapsed := rfl
@[simp] theorem State.setRole_trace (s : State) (v : Role) : (s.setRole v).trace = s.trace := rfl
@[simp] theorem State.setRole_curw (s : State) (v : Role) : (s.setRole v).curw = s.curw := rfl
@[simp] theorem State.setRole_ulTimeoutCounts (s : State) (v : Role) : (s.setRole v).ulTimeoutCounts = s.ulTimeoutCounts := rfl
@[simp] theorem State.setRole_returned (s : State) (v : Role) : (s.setRole v).returned = s.returned := rfl
@[simp] theorem State.setRole_inputs (s : State) (v : Role) : (s.setRole v).inputs = s.inputs := rfl

@[simp] theorem State.setBuf_seq (s : State) (v : Memory) : (s.setBuf v).seq = s.seq := rfl
@[simp] theorem State.setBuf_blk (s : State) (v : Memory) : (s.setBuf v).blk = s.blk := rfl
@[simp] theorem State.setBuf_cnt (s : State) (v : Memory) : (s.setBuf v).cnt = s.cnt := rfl
@[simp] theorem State.setBuf_crc (s : State) (v : Memory) : (s.setBuf v).crc = s.crc := rfl
@[simp] theorem State.setBuf_rxcrc (s : State) (v : Memory) : (s.setBuf v).rxcrc = s.rxcrc := rfl
@[simp] theorem State.setBuf_cur (s : State) (v : Memory) : (s.setBuf v).cur = s.cur := rfl
@[simp] theorem State.setBuf_last (s : State) (v : Memory) : (s.setBuf v).last = s.last := rfl
@[simp] theorem State.setBuf_retry (s : State) (v : Memory) : (s.setBuf v).retry = s.retry := rfl
@[simp] theorem State.setBuf_cap (s : State) (v : Memory) : (s.setBuf v).cap = s.cap := rfl
@[simp] theorem State.setBuf_role (s : State) (v : Memory) : (s.setBuf v).role = s.role := rfl
@[simp] theorem State.setBuf_buf (s : State) (v : Memory) : (s.setBuf v).buf = v := rfl
@[simp] theorem State.setBuf_pending (s : State) (v : Memory) : (s.setBuf v).pending = s.pending := rfl
@[simp] theorem State.setBuf_elapsed (s : State) (v : Memory) : (s.setBuf v).elapsed = s.elapsed := rfl
@[simp] theorem State.setBuf_trace (s : State) (v : Memory) : (s.setBuf v).trace = s.trace := rfl
@[simp] theorem State.setBuf_curw (s : State) (v : Memory) : (s.setBuf v).curw = s.curw := rfl
@[simp] theorem State.setBuf_ulTimeoutCounts (s : State) (v : Memory) : (s.setBuf v).ulTimeoutCounts = s.ulTimeoutCounts := rfl
@[simp] theorem State.setBuf_returned (s : State) (v : Memory) : (s.setBuf v).returned = s.returned := rfl
@[simp] theorem State.setBuf_inputs (s : State) (v : Memory) : (s.setBuf v).inputs = s.inputs := rfl

@[simp] theorem State.setPending_seq (s : State) (v : List Byte) : (s.setPending v).seq = s.seq := rfl
@[simp] theorem State.setPending_blk (s : State) (v : List Byte) : (s.setPending v).blk = s.blk := rfl
@[simp] theorem State.setPending_cnt (s : State) (v : List Byte) : (s.setPending v).cnt = s.cnt := rfl
@[simp] theorem State.setPending_crc (s : State) (v : List Byte) : (s.setPending v).crc = s.crc := rfl
@[simp] theorem State.setPending_rxcrc (s : State) (v : List Byte) : (s.setPending v).rxcrc = s.rxcrc := rfl
@[simp] theorem State.setPending_cur (s : State) (v : List Byte) : (s.setPending v).cur = s.cur := rfl
@[simp] theorem State.setPending_last (s : State) (v : List Byte) : (s.setPending v).last = s.last := rfl
@[simp] theorem State.setPending_retry (s : State) (v : List Byte) : (s.setPending v).retry = s.retry := rfl
@[simp] theorem State.setPending_cap (s : State) (v : List Byte) : (s.setPending v).cap = s.cap := rfl
@[simp] theorem State.setPending_role (s : State) (v : List Byte) : (s.setPending v).role = s.role := rfl
@[simp] theorem State.setPending_buf (s : State) (v : List Byte) : (s.setPending v).buf = s.buf := rfl
@[simp] theorem State.setPending_pending (s : State) (v : List Byte) : (s.setPending v).pending = v := rfl
@[simp] theorem State.setPending_elapsed (s : State) (v : List Byte) : (s.setPending v).elapsed = s.elapsed := rfl
@[simp] theorem State.setPending_trace (s : State) (v : List Byte) : (s.setPending v).trace = s.trace := rfl
@[simp] theorem State.setPending_curw (s : State) (v : List Byte) : (s.setPending v).curw = s.curw := rfl
@[simp] theorem State.setPending_ulTimeoutCounts (s : State) (v : List Byte) : (s.setPending v).ulTimeoutCounts = s.ulTimeoutCounts := rfl
@[simp] theorem State.setPending_returned (s : State) (v : List Byte) : (s.setPending v).returned = s.returned := rfl
@[simp] theorem State.setPending_inputs (s : State) (v : List Byte) : (s.setPending v).inputs = s.inputs := rfl

@[simp] theorem State.setElapsed_seq (s : State) (v : Nat) : (s.setElapsed v).seq = s.seq := rfl
@[simp] theorem State.setElapsed_blk (s : State) (v : Nat) : (s.setElapsed v).blk = s.blk := rfl
@[simp] theorem State.setElapsed_cnt (s : State) (v : Nat) : (s.setElapsed v).cnt = s.cnt := rfl
@[simp] theorem State.setElapsed_crc (s : State) (v : Nat) : (s.setElapsed v).crc = s.crc := rfl
@[simp] theorem State.setElapsed_rxcrc (s : State) (v : Nat) : (s.setElapsed v).rxcrc = s.rxcrc := rfl
@[simp] theorem State.setElapsed_cur (s : State) (v : Nat) : (s.setElapsed v).cur = s.cur := rfl
@[simp] theorem State.setElapsed_last (s : State) (v : Nat) : (s.setElapsed v).last = s.last := rfl
@[simp] theorem State.setElapsed_retry (s : State) (v : Nat) : (s.setElapsed v).retry = s.retry := rfl
@[simp] theorem State.setElapsed_cap (s : State) (v : Nat) : (s.setElapsed v).cap = s.cap := rfl
@[simp] theorem State.setElapsed_role (s : State) (v : Nat) : (s.setElapsed v).role = s.role := rfl
@[simp] theorem State.setElapsed_buf (s : State) (v : Nat) : (s.setElapsed v).buf = s.buf := rfl
@[simp] theorem State.setElapsed_pending (s : State) (v : Nat) : (s.setElapsed v).pending = s.pending := rfl
@[simp] theorem State.setElapsed_elapsed (s : State) (v : Nat) : (s.setElapsed v).elapsed = v := rfl
@[simp] theorem State.setElapsed_trace (s : State) (v : Nat) : (s.setElapsed v).trace = s.trace := rfl
@[simp] theorem State.setElapsed_curw (s : State) (v : Nat) : (s.setElapsed v).curw = s.curw := rfl
@[simp] theorem State.setElapsed_ulTimeoutCounts (s : State) (v : Nat) : (s.setElapsed v).ulTimeoutCounts = s.ulTimeoutCounts := rfl
@[simp] theorem State.setElapsed_returned (s : State) (v : Nat) : (s.setElapsed v).returned = s.returned := rfl
@[simp] theorem State.setElapsed_inputs (s : State) (v : Nat) : (s.setElapsed v).inputs = s.inputs := rfl

@[simp] theorem State.setTrace_seq (s : State) (v : List TraceEvent) : (s.setTrace v).seq = s.seq := rfl
@[simp] theorem State.setTrace_blk (s : State) (v : List TraceEvent) : (s.setTrace v).blk = s.blk := rfl
@[simp] theorem State.setTrace_cnt (s : State) (v : List TraceEvent) : (s.setTrace v).cnt = s.cnt := rfl
@[simp] theorem State.setTrace_crc (s : State) (v : List TraceEvent) : (s.setTrace v).crc = s.crc := rfl
@[simp] theorem State.setTrace_rxcrc (s : State) (v : List TraceEvent) : (s.setTrace v).rxcrc = s.rxcrc := rfl
@[simp] theorem State.setTrace_cur (s : State) (v : List TraceEvent) : (s.setTrace v).cur = s.cur := rfl
@[simp] theorem State.setTrace_last (s : State) (v : List TraceEvent) : (s.setTrace v).last = s.last := rfl
@[simp] theorem State.setTrace_retry (s : State) (v : List TraceEvent) : (s.setTrace v).retry = s.retry := rfl
@[simp] theorem State.setTrace_cap (s : State) (v : List TraceEvent) : (s.setTrace v).cap = s.cap := rfl
@[simp] theorem State.setTrace_role (s : State) (v : List TraceEvent) : (s.setTrace v).role = s.role := rfl
@[simp] theorem State.setTrace_buf (s : State) (v : List TraceEvent) : (s.setTrace v).buf = s.buf := rfl
@[simp] theorem State.setTrace_pending (s : State) (v : List TraceEvent) : (s.setTrace v).pending = s.pending := rfl
@[simp] theorem State.setTrace_elapsed (s : State) (v : List TraceEvent) : (s.setTrace v).elapsed = s.elapsed := rfl
@[simp] theorem State.setTrace_trace (s : State) (v : List TraceEvent) : (s.setTrace v).trace = v := rfl
@[simp] theorem State.setTrace_curw (s : State) (v : List TraceEvent) : (s.setTrace v).curw = s.curw := rfl
@[simp] theorem State.setTrace_ulTimeoutCounts (s : State) (v : List TraceEvent) : (s.setTrace v).ulTimeoutCounts = s.ulTimeoutCounts := rfl
@[simp] theorem State.setTrace_returned (s : State) (v : List TraceEvent) : (s.setTrace v).returned = s.returned := rfl
@[simp] theorem State.setTrace_inputs (s : State) (v : List TraceEvent) : (s.setTrace v).inputs = s.inputs := rfl

@[simp] theorem State.setReturned_seq (s : State) (v : Option Word16) : (s.setReturned v).seq = s.seq := rfl
@[simp] theorem State.setReturned_blk (s : State) (v : Option Word16) : (s.setReturned v).blk = s.blk := rfl
@[simp] theorem State.setReturned_cnt (s : State) (v : Option Word16) : (s.setReturned v).cnt = s.cnt := rfl
@[simp] theorem State.setReturned_crc (s : State) (v : Option Word16) : (s.setReturned v).crc = s.crc := rfl
@[simp] theorem State.setReturned_rxcrc (s : State) (v : Option Word16) : (s.setReturned v).rxcrc = s.rxcrc := rfl
@[simp] theorem State.setReturned_cur (s : State) (v : Option Word16) : (s.setReturned v).cur = s.cur := rfl
@[simp] theorem State.setReturned_last (s : State) (v : Option Word16) : (s.setReturned v).last = s.last := rfl
@[simp] theorem State.setReturned_retry (s : State) (v : Option Word16) : (s.setReturned v).retry = s.retry := rfl
@[simp] theorem State.setReturned_cap (s : State) (v : Option Word16) : (s.setReturned v).cap = s.cap := rfl
@[simp] theorem State.setReturned_role (s : State) (v : Option Word16) : (s.setReturned v).role = s.role := rfl
@[simp] theorem State.setReturned_buf (s : State) (v : Option Word16) : (s.setReturned v).buf = s.buf := rfl
@[simp] theorem State.setReturned_pending (s : State) (v : Option Word16) : (s.setReturned v).pending = s.pending := rfl
@[simp] theorem State.setReturned_elapsed (s : State) (v : Option Word16) : (s.setReturned v).elapsed = s.elapsed := rfl
@[simp] theorem State.setReturned_trace (s : State) (v : Option Word16) : (s.setReturned v).trace = s.trace := rfl
@[simp] theorem State.setReturned_curw (s : State) (v : Option Word16) : (s.setReturned v).curw = s.curw := rfl
@[simp] theorem State.setReturned_ulTimeoutCounts (s : State) (v : Option Word16) : (s.setReturned v).ulTimeoutCounts = s.ulTimeoutCounts := rfl
@[simp] theorem State.setReturned_returned (s : State) (v : Option Word16) : (s.setReturned v).returned = v := rfl
@[simp] theorem State.setReturned_inputs (s : State) (v : Option Word16) : (s.setReturned v).inputs = s.inputs := rfl

@[simp] theorem State.setInputs_seq (s : State) (v : List EnvInput) : (s.setInputs v).seq = s.seq := rfl
@[simp] theorem State.setInputs_blk (s : State) (v : List EnvInput) : (s.setInputs v).blk = s.blk := rfl
@[simp] theorem State.setInputs_cnt (s : State) (v : List EnvInput) : (s.setInputs v).cnt = s.cnt := rfl
@[simp] theorem State.setInputs_crc (s : State) (v : List EnvInput) : (s.setInputs v).crc = s.crc := rfl
@[simp] theorem State.setInputs_rxcrc (s : State) (v : List EnvInput) : (s.setInputs v).rxcrc = s.rxcrc := rfl
@[simp] theorem State.setInputs_cur (s : State) (v : List EnvInput) : (s.setInputs v).cur = s.cur := rfl
@[simp] theorem State.setInputs_last (s : State) (v : List EnvInput) : (s.setInputs v).last = s.last := rfl
@[simp] theorem State.setInputs_retry (s : State) (v : List EnvInput) : (s.setInputs v).retry = s.retry := rfl
@[simp] theorem State.setInputs_cap (s : State) (v : List EnvInput) : (s.setInputs v).cap = s.cap := rfl
@[simp] theorem State.setInputs_role (s : State) (v : List EnvInput) : (s.setInputs v).role = s.role := rfl
@[simp] theorem State.setInputs_buf (s : State) (v : List EnvInput) : (s.setInputs v).buf = s.buf := rfl
@[simp] theorem State.setInputs_pending (s : State) (v : List EnvInput) : (s.setInputs v).pending = s.pending := rfl
@[simp] theorem State.setInputs_elapsed (s : State) (v : List EnvInput) : (s.setInputs v).elapsed = s.elapsed := rfl
@[simp] theorem State.setInputs_trace (s : State) (v : List EnvInput) : (s.setInputs v).trace = s.trace := rfl
@[simp] theorem State.setInputs_curw (s : State) (v : List EnvInput) : (s.setInputs v).curw = s.curw := rfl
@[simp] theorem State.setInputs_ulTimeoutCounts (s : State) (v : List EnvInput) : (s.setInputs v).ulTimeoutCounts = s.ulTimeoutCounts := rfl
@[simp] theorem State.setInputs_returned (s : State) (v : List EnvInput) : (s.setInputs v).returned = s.returned := rfl
@[simp] theorem State.setInputs_inputs (s : State) (v : List EnvInput) : (s.setInputs v).inputs = v := rfl

@[simp] theorem State.putByte_seq (s : State) (b : Byte) : (s.putByte b).seq = s.seq := rfl
@[simp] theorem State.putByte_blk (s : State) (b : Byte) : (s.putByte b).blk = s.blk := rfl
@[simp] theorem State.putByte_cnt (s : State) (b : Byte) : (s.putByte b).cnt = s.cnt := rfl
@[simp] theorem State.putByte_crc (s : State) (b : Byte) : (s.putByte b).crc = s.crc := rfl
@[simp] theorem State.putByte_rxcrc (s : State) (b : Byte) : (s.putByte b).rxcrc = s.rxcrc := rfl
@[simp] theorem State.putByte_cur (s : State) (b : Byte) : (s.putByte b).cur = s.cur := rfl
@[simp] theorem State.putByte_last (s : State) (b : Byte) : (s.putByte b).last = s.last := rfl
@[simp] theorem State.putByte_retry (s : State) (b : Byte) : (s.putByte b).retry = s.retry := rfl
@[simp] theorem State.putByte_cap (s : State) (b : Byte) : (s.putByte b).cap = s.cap := rfl
@[simp] theorem State.putByte_role (s : State) (b : Byte) : (s.putByte b).role = s.role := rfl
@[simp] theorem State.putByte_buf (s : State) (b : Byte) : (s.putByte b).buf = s.buf := rfl
@[simp] theorem State.putByte_pending (s : State) (b : Byte) : (s.putByte b).pending = s.pending := rfl
@[simp] theorem State.putByte_elapsed (s : State) (b : Byte) : (s.putByte b).elapsed = s.elapsed := rfl
@[simp] theorem State.putByte_trace (s : State) (b : Byte) : (s.putByte b).trace = s.trace ++ [.tx b] := rfl
@[simp] theorem State.putByte_curw (s : State) (b : Byte) : (s.putByte b).curw = s.curw := rfl
@[simp] theorem State.putByte_ulTimeoutCounts (s : State) (b : Byte) : (s.putByte b).ulTimeoutCounts = s.ulTimeoutCounts := rfl
@[simp] theorem State.putByte_returned (s : State) (b : Byte) : (s.putByte b).returned = s.returned := rfl
@[simp] theorem State.putByte_inputs (s : State) (b : Byte) : (s.putByte b).inputs = s.inputs := rfl

@[simp] theorem State.timerReset_seq (s : State) : (s.timerReset).seq = s.seq := rfl
@[simp] theorem State.timerReset_blk (s : State) : (s.timerReset).blk = s.blk := rfl
@[simp] theorem State.timerReset_cnt (s : State) : (s.timerReset).cnt = s.cnt := rfl
@[simp] theorem State.timerReset_crc (s : State) : (s.timerReset).crc = s.crc := rfl
@[simp] theorem State.timerReset_rxcrc (s : State) : (s.timerReset).rxcrc = s.rxcrc := rfl
@[simp] theorem State.timerReset_cur (s : State) : (s.timerReset).cur = s.cur := rfl
@[simp] theorem State.timerReset_last (s : State) : (s.timerReset).last = s.last := rfl
@[simp] theorem State.timerReset_retry (s : State) : (s.timerReset).retry = s.retry := rfl
@[simp] theorem State.timerReset_cap (s : State) : (s.timerReset).cap = s.cap := rfl
@[simp] theorem State.timerReset_role (s : State) : (s.timerReset).role = s.role := rfl
@[simp] theorem State.timerReset_buf (s : State) : (s.timerReset).buf = s.buf := rfl
@[simp] theorem State.timerReset_pending (s : State) : (s.timerReset).pending = s.pending := rfl
@[simp] theorem State.timerReset_elapsed (s : State) : (s.timerReset).elapsed = 0 := rfl
@[simp] theorem State.timerReset_trace (s : State) : (s.timerReset).trace = s.trace ++ [.trst] := rfl
@[simp] theorem State.timerReset_curw (s : State) : (s.timerReset).curw = s.curw := rfl
@[simp] theorem State.timerReset_ulTimeoutCounts (s : State) : (s.timerReset).ulTimeoutCounts = s.ulTimeoutCounts := rfl
@[simp] theorem State.timerReset_returned (s : State) : (s.timerReset).returned = s.returned := rfl
@[simp] theorem State.timerReset_inputs (s : State) : (s.timerReset).inputs = s.inputs := rfl

@[simp] theorem State.enterAbort_seq (s : State) : (s.enterAbort).seq = .abort := rfl
@[simp] theorem State.enterAbort_blk (s : State) : (s.enterAbort).blk = s.blk := rfl
@[simp] theorem State.enterAbort_cnt (s : State) : (s.enterAbort).cnt = s.cnt := rfl
@[simp] theorem State.enterAbort_crc (s : State) : (s.enterAbort).crc = s.crc := rfl
@[simp] theorem State.enterAbort_rxcrc (s : State) : (s.enterAbort).rxcrc = s.rxcrc := rfl
@[simp] theorem State.enterAbort_cur (s : State) : (s.enterAbort).cur = s.cur := rfl
@[simp] theorem State.enterAbort_last (s : State) : (s.enterAbort).last = s.last := rfl
@[simp] theorem State.enterAbort_retry (s : State) : (s.enterAbort).retry = s.retry := rfl
@[simp] theorem State.enterAbort_cap (s : State) : (s.enterAbort).cap = s.cap := rfl
@[simp] theorem State.enterAbort_role (s : State) : (s.enterAbort).role = s.role := rfl
@[simp] theorem State.enterAbort_buf (s : State) : (s.enterAbort).buf = s.buf := rfl
@[simp] theorem State.enterAbort_pending (s : State) : (s.enterAbort).pending = s.pending := rfl
@[simp] theorem State.enterAbort_elapsed (s : State) : (s.enterAbort).elapsed = s.elapsed := rfl
@[simp] theorem State.enterAbort_trace (s : State) : (s.enterAbort).trace = s.trace := rfl
@[simp] theorem State.enterAbort_curw (s : State) : (s.enterAbort).curw = s.curw := rfl
@[simp] theorem State.enterAbort_ulTimeoutCounts (s : State) : (s.enterAbort).ulTimeoutCounts = s.ulTimeoutCounts := rfl
@[simp] theorem State.enterAbort_returned (s : State) : (s.enterAbort).returned = s.returned := rfl
@[simp] theorem State.enterAbort_inputs (s : State) : (s.enterAbort).inputs = s.inputs := rfl

@[simp] theorem State.closeSession_seq (s : State) : (s.closeSession).seq = s.seq := rfl
@[simp] theorem State.closeSession_blk (s : State) : (s.closeSession).blk = s.blk := rfl
@[simp] theorem State.closeSession_cnt (s : State) : (s.closeSession).cnt = s.cnt := rfl
@[simp] theorem State.closeSession_crc (s : State) : (s.closeSession).crc = s.crc := rfl
@[simp] theorem State.closeSession_rxcrc (s : State) : (s.closeSession).rxcrc = s.rxcrc := rfl
@[simp] theorem State.closeSession_cur (s : State) : (s.closeSession).cur = s.cur := rfl
@[simp] theorem State.closeSession_last (s : State) : (s.closeSession).last = s.last := rfl
@[simp] theorem State.closeSession_retry (s : State) : (s.closeSession).retry = s.retry := rfl
@[simp] theorem State.closeSession_cap (s : State) : (s.closeSession).cap = s.cap := rfl
@[simp] theorem State.closeSession_role (s : State) : (s.closeSession).role = .none := rfl
@[simp] theorem State.closeSession_buf (s : State) : (s.closeSession).buf = s.buf := rfl
@[simp] theorem State.closeSession_pending (s : State) : (s.closeSession).pending = s.pending := rfl
@[simp] theorem State.closeSession_elapsed (s : State) : (s.closeSession).elapsed = s.elapsed := rfl
@[simp] theorem State.closeSession_trace (s : State) : (s.closeSession).trace = s.trace := rfl
@[simp] theorem State.closeSession_curw (s : State) : (s.closeSession).curw = s.curw := rfl
@[simp] theorem State.closeSession_ulTimeoutCounts (s : State) : (s.closeSession).ulTimeoutCounts = s.ulTimeoutCounts := rfl
@[simp] theorem State.closeSession_returned (s : State) : (s.closeSession).returned = s.returned := rfl
@[simp] theorem State.closeSession_inputs (s : State) : (s.closeSession).inputs = s.inputs := rfl

@[simp] theorem State.startSession_seq (s : State) (r : Role) (c : Nat) : (s.startSession r c).seq = .await := rfl
@[simp] theorem State.startSession_blk (s : State) (r : Role) (c : Nat) : (s.startSession r c).blk = 1#8 := rfl
@[simp] theorem State.startSession_cnt (s : State) (r : Role) (c : Nat) : (s.startSession r c).cnt = 0#8 := rfl
@[simp] theorem State.startSession_crc (s : State) (r : Role) (c : Nat) : (s.startSession r c).crc = Config.crcInit := rfl
@[simp] theorem State.startSession_rxcrc (s : State) (r : Role) (c : Nat) : (s.startSession r c).rxcrc = 0#16 := rfl
@[simp] theorem State.startSession_cur (s : State) (r : Role) (c : Nat) : (s.startSession r c).cur = 0 := rfl
@[simp] theorem State.startSession_last (s : State) (r : Role) (c : Nat) : (s.startSession r c).last = 0#8 := rfl
@[simp] theorem State.startSession_retry (s : State) (r : Role) (c : Nat) : (s.startSession r c).retry = 0#8 := rfl
@[simp] theorem State.startSession_cap (s : State) (r : Role) (c : Nat) : (s.startSession r c).cap = c := rfl
@[simp] theorem State.startSession_role (s : State) (r : Role) (c : Nat) : (s.startSession r c).role = r := rfl
@[simp] theorem State.startSession_buf (s : State) (r : Role) (c : Nat) : (s.startSession r c).buf = s.buf := rfl
@[simp] theorem State.startSession_pending (s : State) (r : Role) (c : Nat) : (s.startSession r c).pending = s.pending := rfl
@[simp] theorem State.startSession_elapsed (s : State) (r : Role) (c : Nat) : (s.startSession r c).elapsed = s.elapsed := rfl
@[simp] theorem State.startSession_trace (s : State) (r : Role) (c : Nat) : (s.startSession r c).trace = s.trace := rfl
@[simp] theorem State.startSession_curw (s : State) (r : Role) (c : Nat) : (s.startSession r c).curw = s.curw := rfl
@[simp] theorem State.startSession_ulTimeoutCounts (s : State) (r : Role) (c : Nat) : (s.startSession r c).ulTimeoutCounts = s.ulTimeoutCounts := rfl
@[simp] theorem State.startSession_returned (s : State) (r : Role) (c : Nat) : (s.startSession r c).returned = s.returned := rfl
@[simp] theorem State.startSession_inputs (s : State) (r : Role) (c : Nat) : (s.startSession r c).inputs = s.inputs := rfl

@[simp] theorem State.resetRegisters_seq (s : State) : (s.resetRegisters).seq = .await := rfl
@[simp] theorem State.resetRegisters_blk (s : State) : (s.resetRegisters).blk = 0#8 := rfl
@[simp] theorem State.resetRegisters_cnt (s : State) : (s.resetRegisters).cnt = 0#8 := rfl
@[simp] theorem State.resetRegisters_crc (s : State) : (s.resetRegisters).crc = 0#16 := rfl
@[simp] theorem State.resetRegisters_rxcrc (s : State) : (s.resetRegisters).rxcrc = 0#16 := rfl
@[simp] theorem State.resetRegisters_cur (s : State) : (s.resetRegisters).cur = 0 := rfl
@[simp] theorem State.resetRegisters_last (s : State) : (s.resetRegisters).last = 0#8 := rfl
@[simp] theorem State.resetRegisters_retry (s : State) : (s.resetRegisters).retry = 0#8 := rfl
@[simp] theorem State.resetRegisters_cap (s : State) : (s.resetRegisters).cap = 0 := rfl
@[simp] theorem State.resetRegisters_role (s : State) : (s.resetRegisters).role = .none := rfl
@[simp] theorem State.resetRegisters_buf (s : State) : (s.resetRegisters).buf = s.buf := rfl
@[simp] theorem State.resetRegisters_pending (s : State) : (s.resetRegisters).pending = s.pending := rfl
@[simp] theorem State.resetRegisters_elapsed (s : State) : (s.resetRegisters).elapsed = s.elapsed := rfl
@[simp] theorem State.resetRegisters_trace (s : State) : (s.resetRegisters).trace = s.trace := rfl
@[simp] theorem State.resetRegisters_curw (s : State) : (s.resetRegisters).curw = s.curw := rfl
@[simp] theorem State.resetRegisters_ulTimeoutCounts (s : State) : (s.resetRegisters).ulTimeoutCounts = s.ulTimeoutCounts := rfl
@[simp] theorem State.resetRegisters_returned (s : State) : (s.resetRegisters).returned = s.returned := rfl
@[simp] theorem State.resetRegisters_inputs (s : State) : (s.resetRegisters).inputs = s.inputs := rfl

end Sys2Proof.Machine
end

