-- ==== Sys2Proof/Laws/Memory.lean ====
section
/-! SUPPORT. The laws of the buffer's cells: what a write leaves to be read, and that every memory operation keeps the canonical form. -/

namespace Sys2Proof.Machine

/-- Every cell's offset is above `lo`. -/
def Memory.above (lo : Nat) (m : Memory) : Prop := ∀ p ∈ m, lo < p.1

theorem Memory.wfFrom_some {lo : Nat} {m : Memory} :
    Memory.wfFrom (some lo) m = true ↔ Memory.wfFrom none m = true ∧ m.above lo := by
  induction m generalizing lo with
  | nil => simp [Memory.wfFrom, Memory.above]
  | cons p m ih =>
    obtain ⟨a, v⟩ := p
    simp only [Memory.wfFrom, Memory.above, Bool.and_eq_true, decide_eq_true_eq, List.mem_cons, true_and]
    constructor
    · rintro ⟨⟨h1, h2⟩, h3⟩
      refine ⟨⟨h2, h3⟩, ?_⟩
      rintro p (rfl | hp)
      · exact h1
      · exact Nat.lt_trans h1 ((ih.1 h3).2 p hp)
    · rintro ⟨⟨h2, h3⟩, h4⟩
      exact ⟨⟨h4 _ (.inl rfl), h2⟩, h3⟩

/-- The canonical form of a cell in front of a memory. -/
theorem Memory.wf_cons {a : Nat} {v : Byte} {m : Memory} :
    Memory.wf ((a, v) :: m) = true ↔ v ≠ Config.unlistedByte ∧ m.wf = true ∧ m.above a := by
  simp [Memory.wf, Memory.wfFrom, Memory.wfFrom_some]

/-- A memory whose offsets are all above `k` lists nothing at `k`. -/
theorem Memory.read_of_above {k : Nat} {m : Memory} (h : m.above k) : m.read k = Config.unlistedByte := by
  induction m with
  | nil => rfl
  | cons p m ih =>
    obtain ⟨a, v⟩ := p
    have ha : k < a := h _ (List.mem_cons_self ..)
    simp only [Memory.read, if_neg (Nat.ne_of_lt ha)]
    exact ih (fun q hq => h q (List.mem_cons_of_mem _ hq))

/-- A write puts no offset below a bound that both it and the memory respect. -/
theorem Memory.above_write {lo k : Nat} {v : Byte} {m : Memory} (h : m.above lo) (hk : lo < k) : (m.write k v).above lo := by
  induction m with
  | nil =>
    unfold Memory.write
    split
    · exact h
    · simp [Memory.above, hk]
  | cons p m ih =>
    obtain ⟨a, w⟩ := p
    have ha : lo < a := h _ (List.mem_cons_self ..)
    have hm : Memory.above lo m := fun q hq => h q (List.mem_cons_of_mem _ hq)
    have ih' := ih hm
    simp only [Memory.write]
    intro q hq
    split at hq
    · split at hq
      · exact h q hq
      · rcases List.mem_cons.1 hq with rfl | hq
        · exact hk
        · exact h q hq
    · split at hq
      · split at hq
        · exact hm q hq
        · rcases List.mem_cons.1 hq with rfl | hq
          · exact hk
          · exact hm q hq
      · rcases List.mem_cons.1 hq with rfl | hq
        · exact ha
        · exact ih' q hq

/-- A write keeps the canonical form. -/
theorem Memory.write_wf {m : Memory} (k : Nat) (v : Byte) (h : m.wf = true) : (m.write k v).wf = true := by
  induction m with
  | nil =>
    unfold Memory.write
    split
    · rfl
    · rename_i hv
      exact Memory.wf_cons.2 ⟨hv, rfl, by simp [Memory.above]⟩
  | cons p m ih =>
    obtain ⟨a, w⟩ := p
    obtain ⟨hw, hm, hab⟩ := Memory.wf_cons.1 h
    simp only [Memory.write]
    split
    · rename_i hka
      split
      · exact h
      · rename_i hv
        refine Memory.wf_cons.2 ⟨hv, h, ?_⟩
        intro q hq
        rcases List.mem_cons.1 hq with rfl | hq
        · exact hka
        · exact Nat.lt_trans hka (hab q hq)
    · split
      · rename_i hka
        split
        · exact hm
        · rename_i hv
          exact Memory.wf_cons.2 ⟨hv, hm, hka ▸ hab⟩
      · exact Memory.wf_cons.2 ⟨hw, ih hm, Memory.above_write hab (by omega)⟩

/-- What a write leaves to be read: the new byte at its offset, every other offset as before. -/
theorem Memory.read_write {m : Memory} (k j : Nat) (v : Byte) (h : m.wf = true) :
    (m.write k v).read j = if j = k then v else m.read j := by
  induction m with
  | nil =>
    unfold Memory.write
    by_cases hj : j = k
    · by_cases hv : v = Config.unlistedByte <;> simp [Memory.read, hv, hj]
    · by_cases hv : v = Config.unlistedByte <;> simp [Memory.read, hv, hj]
  | cons p m ih =>
    obtain ⟨a, w⟩ := p
    obtain ⟨-, hm, hab⟩ := Memory.wf_cons.1 h
    simp only [Memory.write]
    split
    · rename_i hka
      have habove : Memory.above k ((a, w) :: m) := by
        intro q hq
        rcases List.mem_cons.1 hq with rfl | hq
        · exact hka
        · exact Nat.lt_trans hka (hab q hq)
      split
      · rename_i hv
        by_cases hj : j = k
        · subst hj; rw [if_pos rfl, hv]; exact Memory.read_of_above habove
        · rw [if_neg hj]
      · by_cases hj : j = k
        · subst hj; simp [Memory.read]
        · simp [Memory.read, hj]
    · split
      · rename_i hka
        subst hka
        split
        · rename_i hv
          by_cases hj : j = k
          · subst hj; rw [if_pos rfl, hv]; exact Memory.read_of_above hab
          · simp [Memory.read, hj]
        · by_cases hj : j = k
          · subst hj; simp [Memory.read]
          · simp [Memory.read, hj]
      · rename_i h1 h2
        simp only [Memory.read, ih hm]
        by_cases hj : j = a
        · rw [if_pos hj, if_pos hj, if_neg (by omega)]
        · rw [if_neg hj, if_neg hj]

/-- The cells of a store start at its base. -/
theorem Memory.above_ofBytes {lo base : Nat} {vs : List Byte} (h : lo < base) : (Memory.ofBytes base vs).above lo := by
  induction vs generalizing base with
  | nil => simp [Memory.ofBytes, Memory.above]
  | cons v vs ih =>
    unfold Memory.ofBytes
    split
    · exact ih (by omega)
    · intro q hq
      rcases List.mem_cons.1 hq with rfl | hq
      · exact h
      · exact ih (base := base + 1) (by omega) q hq

/-- A store the host hands over is in canonical form. -/
theorem Memory.ofBytes_wf (base : Nat) (vs : List Byte) : (Memory.ofBytes base vs).wf = true := by
  induction vs generalizing base with
  | nil => rfl
  | cons v vs ih =>
    unfold Memory.ofBytes
    split
    · exact ih _
    · rename_i hv
      exact Memory.wf_cons.2 ⟨hv, ih _, Memory.above_ofBytes (by omega)⟩

/-- A store reads as its bytes, from its base on. -/
theorem Memory.read_ofBytes (base i : Nat) (vs : List Byte) (h : i < vs.length) :
    (Memory.ofBytes base vs).read (base + i) = vs[i] := by
  induction vs generalizing base i with
  | nil => simp at h
  | cons v vs ih =>
    unfold Memory.ofBytes
    cases i with
    | zero =>
      split
      · rename_i hv
        simpa [hv] using Memory.read_of_above (Memory.above_ofBytes (lo := base) (by omega))
      · simp [Memory.read]
    | succ i =>
      have hi : i < vs.length := by simpa using h
      have hrec := ih (base + 1) i hi
      rw [show base + 1 + i = base + (i + 1) by omega] at hrec
      split
      · simpa using hrec
      · simpa [Memory.read, show base ≠ base + (i + 1) by omega] using hrec

/-- A slice has as many bytes as asked for. -/
@[simp] theorem Memory.length_slice (m : Memory) (a n : Nat) : (m.slice a n).length = n := by simp [Memory.slice]

/-- One byte more at a slice's end. -/
theorem Memory.slice_succ (m : Memory) (a n : Nat) : m.slice a (n + 1) = m.slice a n ++ [m.read (a + n)] := by
  simp [Memory.slice, List.range_succ]

/-- A slice depends only on the bytes it holds. -/
theorem Memory.slice_congr {m m' : Memory} {a n : Nat} (h : ∀ i, i < n → m.read (a + i) = m'.read (a + i)) :
    m.slice a n = m'.slice a n := by
  simp only [Memory.slice]
  exact List.map_congr_left (fun i hi => h i (List.mem_range.1 hi))

end Sys2Proof.Machine
end

