-- ==== Sys2Proof/Laws/Ops.lean ====
section
/-! SUPPORT. One lemma for each shared operation, saying once what it can do; later proofs cite these and do not unfold the operation. -/

namespace Sys2Proof.Machine

/-! ## Outcomes -/

theorem toResult_eq_next {e : Except Fault State} {t : State} : toResult e = .next t ↔ e = .ok t := by
  cases e <;> simp [toResult]

theorem toResult_eq_fault {e : Except Fault State} {f : Fault} : toResult e = .fault f ↔ e = .error f := by
  cases e <;> simp [toResult]

theorem toResult_ne_refused {e : Except Fault State} {r : Refusal} : toResult e ≠ .refused r := by
  cases e <;> simp [toResult]

theorem onNext_eq_next {r : Result} {f : State → Result} {t : State} :
    onNext r f = .next t ↔ ∃ s, r = .next s ∧ f s = .next t := by
  cases r <;> simp [onNext]

/-! ## Buffer accesses and `getByte` -/

theorem memRead_of_lt {s : State} {a : Nat} (h : a < s.cap) : s.memRead a = .ok (s.buf.read a) := if_pos h

theorem memRead_of_ge {s : State} {a : Nat} (h : s.cap ≤ a) : s.memRead a = .error (.bufferRange a) :=
  if_neg (Nat.not_lt.2 h)

theorem memWrite_of_lt {s : State} {a : Nat} {v : Byte} (h : a < s.cap) :
    s.memWrite a v = .ok (s.setBuf (s.buf.write a v)) := if_pos h

theorem memWrite_of_ge {s : State} {a : Nat} {v : Byte} (h : s.cap ≤ a) : s.memWrite a v = .error (.bufferRange a) :=
  if_neg (Nat.not_lt.2 h)

theorem getByte_nil {s : State} (h : s.pending = []) : s.getByte = none := by simp [State.getByte, h]

theorem getByte_cons {s : State} {b : Byte} {rest : List Byte} (h : s.pending = b :: rest) :
    s.getByte = some (b, s.setPending rest) := by simp [State.getByte, h]

theorem byteAvailable_eq_true {s : State} : s.byteAvailable = true ↔ s.pending ≠ [] := by
  simp [State.byteAvailable]

/-! ## Capacities -/

/-- A legal capacity, in numbers. -/
theorem capLegal_iff {w cap : Nat} : capLegal w cap = true ↔ cap % 128 = 0 ∧ 128 ≤ cap ∧ cap + 128 ≤ 2 ^ w := by
  have h : capLegal w cap = true ↔ cap % Config.payload = 0 ∧ Config.payload ≤ cap ∧ cap + Config.payload ≤ 2 ^ w := by
    simp [capLegal, and_assoc]
  exact h

/-! ## Numbers of `w` bits -/

theorem wrap_lt (w : Nat) (x : Int) : wrap w x < 2 ^ w := by
  have h : (0 : Int) < ((2 ^ w : Nat) : Int) := by exact_mod_cast Nat.two_pow_pos w
  have h0 := Int.emod_nonneg x (Int.ne_of_gt h)
  have h1 := Int.emod_lt_of_pos x h
  unfold wrap
  omega

/-- A number that `w` bits hold is kept. -/
theorem wrap_of_lt {w n : Nat} (h : n < 2 ^ w) : wrap w n = n := by
  unfold wrap
  rw [Int.emod_eq_of_lt (Int.natCast_nonneg n) (by exact_mod_cast h)]
  exact Int.toNat_natCast n

/-- A natural number wraps as a natural number. -/
theorem wrap_natCast (w n : Nat) : wrap w n = n % 2 ^ w := by
  unfold wrap
  rw [← Int.natCast_emod]
  exact Int.toNat_natCast _

/-- What wraps differs from the exact result by a multiple of `2^w`. -/
theorem wrap_emod (w : Nat) (x : Int) : ((wrap w x : Nat) : Int) = x % ((2 ^ w : Nat) : Int) := by
  have h : (0 : Int) < ((2 ^ w : Nat) : Int) := by exact_mod_cast Nat.two_pow_pos w
  exact Int.toNat_of_nonneg (Int.emod_nonneg x (Int.ne_of_gt h))

/-! ## The cursor, in numbers -/

theorem cursorNext_eq (w c : Nat) : cursorNext w c = (c + 1) % 2 ^ w := by
  have h := wrap_natCast w (c + 1)
  simpa [cursorNext] using h

theorem cursorNext_lt (w c : Nat) : cursorNext w c < 2 ^ w := wrap_lt ..

theorem cursorRewind_lt (w c : Nat) : cursorRewind w c < 2 ^ w := wrap_lt ..

/-- The cursor advances by one where it does not wrap. -/
theorem cursorNext_of_lt {w c : Nat} (h : c + 1 < 2 ^ w) : cursorNext w c = c + 1 := by
  rw [cursorNext_eq, Nat.mod_eq_of_lt h]

/-- The cursor goes back by 128 where it does not wrap. -/
theorem cursorRewind_of_le {w c : Nat} (h : 128 ≤ c) (hc : c < 2 ^ w) : cursorRewind w c = c - 128 := by
  have hx : ((c : Int) - (Config.payload : Nat)) = ((c - 128 : Nat) : Int) := by
    have : Config.payload = 128 := rfl
    omega
  unfold cursorRewind
  rw [hx, wrap_of_lt (by omega)]

/-- The rewound cursor, 128 further, is the cursor again in `w` bits. -/
theorem cursorRewind_add (w c : Nat) : (cursorRewind w c + 128) % 2 ^ w = c % 2 ^ w := by
  have h : (((cursorRewind w c + 128) % 2 ^ w : Nat) : Int) = ((c % 2 ^ w : Nat) : Int) := by
    rw [Int.natCast_emod, Int.natCast_emod, Int.natCast_add]
    have hr : ((cursorRewind w c : Nat) : Int) = ((c : Int) - 128) % ((2 ^ w : Nat) : Int) := wrap_emod ..
    rw [hr, Int.emod_add_emod]
    congr 1
    norm_num
  exact_mod_cast h

/-- The byte counter advances by one while it is below 128. -/
theorem cntNext_toNat {c : Byte} (h : c.toNat < 128) : (c + 1#8).toNat = c.toNat + 1 := by
  have hc : (c + 1#8).toNat = (c.toNat + 1) % 256 := BitVec.toNat_add c 1#8
  omega

/-! ## The outcome predicates, in numbers -/

theorem timedOut_iff {s : State} : timedOut s = true ↔ 1000 < s.elapsed := by
  simp only [timedOut, decide_eq_true_eq]
  rfl

theorem retryExhausted_iff {s : State} : retryExhausted s = true ↔ 15 < s.retry.toNat := by
  simp only [retryExhausted, decide_eq_true_eq]
  rfl

theorem blocksExhausted_iff {s : State} : blocksExhausted s = true ↔ blockCount s.cap < s.blk.toNat := by
  simp only [blocksExhausted, decide_eq_true_eq]

/-! ## The byte counter and the receive store -/

theorem payloadComplete_iff {c : Byte} : payloadComplete c = true ↔ c.toNat = 128 := by
  simp [payloadComplete, Config.payload]

/-- `RX.RUN` in the buffer, in one record. -/
theorem execRxRun_of_lt {s : State} {b : Byte} (h : s.cur < s.cap) :
    execRxRun b s = .next { s with
      crc := crcUpdate s.crc b
      buf := s.buf.write s.cur b
      cur := cursorNext s.curw s.cur
      cnt := s.cnt + 1#8
      seq := if payloadComplete (s.cnt + 1#8) then .crc1 else s.seq } := by
  simp only [execRxRun]
  rw [memWrite_of_lt (by simpa using h)]
  simp only [Except.map, toResult, countPayload]
  split <;> simp_all [State.setCrc, State.setBuf, State.setCur, State.setCnt, State.setSeq]

theorem execRxRun_of_ge {s : State} {b : Byte} (h : s.cap ≤ s.cur) :
    execRxRun b s = .fault (.bufferRange s.cur) := by
  simp only [execRxRun]
  rw [memWrite_of_ge (by simpa using h)]
  rfl

/-! ## The payload loop of `SendBlock` -/

/-- The loop inside the buffer: it folds and emits the bytes of the slice and changes nothing else. -/
theorem sendPayload_of_le {k a : Nat} {s : State} (h : a + k ≤ s.cap) :
    sendPayload k a s = .ok { s with
      crc := crcFold s.crc (s.buf.slice a k)
      trace := s.trace ++ (s.buf.slice a k).map .tx } := by
  induction k generalizing a s with
  | zero => simp [sendPayload, Memory.slice, crcFold]
  | succ k ih =>
    have hs : s.buf.slice a (k + 1) = s.buf.read a :: s.buf.slice (a + 1) k := by
      simp only [Memory.slice, List.range_succ_eq_map, List.map_cons, List.map_map, Nat.add_zero, List.cons.injEq, true_and]
      exact List.map_congr_left (fun i _ => by simp [Nat.add_assoc, Nat.add_comm 1 i])
    simp only [sendPayload, memRead_of_lt (show a < s.cap by omega)]
    rw [ih (by simp; omega), hs]
    simp [crcFold, State.setCrc, State.putByte, State.setTrace]

/-- The loop can only fault at an offset outside the buffer. -/
theorem sendPayload_error {k a : Nat} {s : State} {f : Fault} (h : sendPayload k a s = .error f) :
    ∃ i, i < k ∧ s.cap ≤ a + i ∧ f = .bufferRange (a + i) := by
  induction k generalizing a s with
  | zero => simp [sendPayload] at h
  | succ k ih =>
    by_cases ha : a < s.cap
    · simp only [sendPayload, memRead_of_lt ha] at h
      obtain ⟨i, hi, hcap, rfl⟩ := ih h
      simp at hcap
      exact ⟨i + 1, by omega, by omega, by simp [Nat.add_assoc, Nat.add_comm 1 i]⟩
    · rw [Nat.not_lt] at ha
      simp only [sendPayload, memRead_of_ge ha, Except.error.injEq] at h
      exact ⟨0, by omega, by simpa using ha, by simp [← h]⟩

/-- The loop, where it ends, has emitted some bytes and changed `CRC`, and nothing else. -/
theorem sendPayload_ok {k a : Nat} {s t : State} (h : sendPayload k a s = .ok t) :
    ∃ bytes : List Byte, t = { s with crc := t.crc, trace := s.trace ++ bytes.map .tx } := by
  induction k generalizing a s with
  | zero => cases h; exact ⟨[], by simp⟩
  | succ k ih =>
    simp only [sendPayload] at h
    cases hm : s.memRead a with
    | error f => simp [hm] at h
    | ok d =>
      simp only [hm] at h
      obtain ⟨bytes, ht⟩ := ih h
      exact ⟨d :: bytes, by rw [ht]; simp [State.setCrc, State.putByte, State.setTrace]⟩

/-- `SendBlock`, where it ends, has emitted some bytes and changed `CRC`, and nothing else. -/
theorem sendBlock_ok {n : Byte} {s t : State} (h : sendBlock n s = .ok t) :
    ∃ bytes : List Byte, t = { s with crc := t.crc, trace := s.trace ++ bytes.map .tx } := by
  unfold sendBlock at h
  cases hx : sendPayload Config.payload (txOffset s.curw s.cap n) ((sendHeader n s).setCrc Config.crcInit) with
  | error f => simp [hx, Except.map] at h
  | ok u =>
    obtain ⟨bytes, hu⟩ := sendPayload_ok hx
    simp only [hx, Except.map, Except.ok.injEq] at h
    refine ⟨[Config.soh, n, complement n] ++ bytes ++ [highOctet u.crc, lowOctet u.crc], ?_⟩
    rw [← h, hu]
    simp [sendTrailer, sendHeader, State.setCrc, State.putByte, State.setTrace]

/-! ## Start commands, polls, the step -/

theorem startCheck_of_active {cap : Nat} {s : State} {go : State → Result} (h : s.role ≠ .none) :
    startCheck cap s go = .refused .sessionActive := if_pos h

theorem startCheck_of_illegal {cap : Nat} {s : State} {go : State → Result} (h : s.role = .none)
    (hc : capLegal s.curw cap = false) : startCheck cap s go = .refused .illegalCapacity := by
  simp [startCheck, h, hc]

theorem startCheck_of_legal {cap : Nat} {s : State} {go : State → Result} (h : s.role = .none)
    (hc : capLegal s.curw cap = true) : startCheck cap s go = go s := by
  simp [startCheck, h, hc]

theorem pollEnabled_iff {role : Role} {s : State} :
    pollEnabled role s = true ↔ s.role = role ∧ s.seq ≠ .abort ∧ s.seq ≠ .ended := by
  simp only [pollEnabled, Bool.and_eq_true, beq_iff_eq]
  cases s.seq <;> simp [isTerminal]

/-- With `RETRY_RESET_ON_BYTE` false, a byte read resets the timer and nothing else. -/
theorem noteByte_eq (s : State) : noteByte s = s.timerReset := by simp [noteByte, Config.retryResetOnByte]

theorem countTimeout_eq (s : State) : countTimeout s = (s.setRetry (s.retry + 1#8)).timerReset := by
  simp [countTimeout, Config.resetTimerOnTimeout]

theorem pollByte_cons {role : Role} {d : Byte → State → Result} {s : State} {b : Byte} {rest : List Byte}
    (he : pollEnabled role s = true) (hp : s.pending = b :: rest) :
    pollByte role d s = d b (s.setPending rest).timerReset := by
  simp [pollByte, he, getByte_cons hp, noteByte_eq]

theorem pollByte_nil {role : Role} {d : Byte → State → Result} {s : State} (hp : s.pending = []) :
    pollByte role d s = .refused .notEnabled := by
  simp [pollByte, getByte_nil hp]

theorem pollByte_disabled {role : Role} {d : Byte → State → Result} {s : State} (he : pollEnabled role s = false) :
    pollByte role d s = .refused .notEnabled := by
  simp [pollByte, he]

theorem pollIdle_enabled {role : Role} {f : State → State} {s : State} (he : pollEnabled role s = true) (hp : s.pending = []) :
    pollIdle role f s = .next (checkRetry (if timedOut s then f s else s)) := by
  simp [pollIdle, he, hp, State.byteAvailable]

/-- What the environment's part can do: the store is taken only between sessions, and everything else happens always. -/
theorem takeInput_ok {s s1 : State} (h : s.takeInput = .ok s1) :
    (s.nextInput.supply = none ∨ s.role = .none) ∧
    s1 = { s with
      buf := match s.nextInput.supply with | none => s.buf | some bytes => Memory.ofBytes 0 bytes
      pending := s.pending ++ s.nextInput.arrivals
      elapsed := s.elapsed + s.nextInput.wait
      inputs := s.inputs.tail } := by
  unfold State.takeInput at h
  cases hs : s.nextInput.supply with
  | none =>
    simp only [hs, State.takeSupply, Except.map, Except.ok.injEq] at h
    exact ⟨.inl rfl, by rw [← h]; rfl⟩
  | some bytes =>
    by_cases hr : s.role = .none
    · simp only [hs, State.takeSupply, hr, if_true, Except.map, Except.ok.injEq] at h
      exact ⟨.inr hr, by rw [← h]; simp [State.setInputs, State.setElapsed, State.setPending, State.setBuf]⟩
    · simp [hs, State.takeSupply, hr, Except.map] at h

theorem takeInput_error {s : State} {r : Refusal} (h : s.takeInput = .error r) :
    r = .bufferInUse ∧ s.nextInput.supply ≠ none ∧ s.role ≠ .none := by
  unfold State.takeInput at h
  cases hs : s.nextInput.supply with
  | none => simp [hs, State.takeSupply, Except.map] at h
  | some bytes =>
    by_cases hr : s.role = .none
    · simp [hs, State.takeSupply, hr, Except.map] at h
    · simp only [hs, State.takeSupply, hr, if_false, Except.map, Except.error.injEq] at h
      exact ⟨h.symm, by simp, hr⟩

end Sys2Proof.Machine
end

