-- ==== Sys2Proof/Laws/PerInstr.lean ====
section
/-! SUPPORT. Statements made instruction by instruction. RoundTrip: the decoder reads from an operation's selector that operation, with
every operand at every value its form admits. -/

namespace Sys2Proof.Laws.RoundTrip

/-- Decoding the encoded operation gives it back. -/
def Statement (i : Instr) : Prop := i.wellFormed = true → decode (encode i) = .ok i

theorem crcUpdate (acc : Word16) (b : Byte) : Statement (.crcUpdate acc b) := fun _ => rfl

theorem rxAwaitSoh : Statement (.rxAwaitSoh) := fun _ => rfl

theorem rxAwaitEot : Statement (.rxAwaitEot) := fun _ => rfl

theorem rxAwaitEtb : Statement (.rxAwaitEtb) := fun _ => rfl

theorem rxAwaitOther (b : Byte) : Statement (.rxAwaitOther b) := by
  intro h
  simp only [Instr.wellFormed, isAwaitCode, Bool.not_eq_true', Bool.or_eq_false_iff, beq_eq_false_iff_ne] at h
  simp [encode, decode, decodeByte, decodeReceive, h]

theorem rxBlock (b : Byte) : Statement (.rxBlock b) := fun _ => rfl

theorem rxBlock2 (b : Byte) : Statement (.rxBlock2 b) := fun _ => rfl

theorem rxRun (b : Byte) : Statement (.rxRun b) := fun _ => rfl

theorem rxCrc1 (b : Byte) : Statement (.rxCrc1 b) := fun _ => rfl

theorem rxCrc2 (b : Byte) : Statement (.rxCrc2 b) := fun _ => rfl

theorem rxTerminal (b : Byte) : Statement (.rxTerminal b) := fun _ => rfl

theorem txSendBlock (n : Byte) : Statement (.txSendBlock n) := fun _ => rfl

theorem ulC : Statement (.ulC) := fun _ => rfl

theorem ulAck : Statement (.ulAck) := fun _ => rfl

theorem ulOther (b : Byte) : Statement (.ulOther b) := by
  intro h
  simp only [Instr.wellFormed, isUploadCode, Bool.not_eq_true', Bool.or_eq_false_iff, beq_eq_false_iff_ne] at h
  simp [encode, decode, decodeByte, decodeUpload, h]

theorem startDl (cap : Nat) : Statement (.startDl cap) := fun _ => rfl

theorem startUl (cap : Nat) : Statement (.startUl cap) := fun _ => rfl

theorem pollDlByte : Statement (.pollDlByte) := fun _ => rfl

theorem pollUlByte : Statement (.pollUlByte) := fun _ => rfl

theorem pollDlIdle : Statement (.pollDlIdle) := fun _ => rfl

theorem pollUlIdle : Statement (.pollUlIdle) := fun _ => rfl

theorem retryCheck : Statement (.retryCheck) := fun _ => rfl

theorem sessionEnd : Statement (.sessionEnd) := fun _ => rfl

theorem drain : Statement (.drain) := fun _ => rfl

theorem reset : Statement (.reset) := fun _ => rfl

end Sys2Proof.Laws.RoundTrip
end

