-- ==== Sys2Proof/Laws/Step.lean ====
section
/-! SUPPORT. What a step can do, said once: the cases of a step that answers a next state, and those of the two dispatches. Every
invariant is a case analysis of these. -/

namespace Sys2Proof.Machine

/-- What `HandleByte(b)` can do from `s` to `t` (41_receive.md R100). -/
inductive HandleCase (b : Byte) (s : State) : State → Prop
  | soh : s.seq = .await → b = 0x01#8 → HandleCase b s { s with cnt := 0#8, crc := 0#16, seq := .block }
  | eot : s.seq = .await → b = 0x04#8 →
      HandleCase b s { s with trace := s.trace ++ [.tx 0x06#8, .tx 0x06#8], seq := .ended }
  | etb : s.seq = .await → b = 0x17#8 → HandleCase b s { s with trace := s.trace ++ [.tx 0x06#8], seq := .ended }
  | other : s.seq = .await → isAwaitCode b = false → HandleCase b s { s with seq := .abort }
  | block : s.seq = .block → HandleCase b s { s with blk := b, seq := .block2 }
  | mismatch : s.seq = .block2 → b ≠ complement s.blk → HandleCase b s { s with seq := .abort }
  | duplicate : s.seq = .block2 → b = complement s.blk → s.blk = s.last →
      HandleCase b s { s with cur := cursorRewind s.curw s.cur, seq := .run }
  | fresh : s.seq = .block2 → b = complement s.blk → s.blk ≠ s.last → HandleCase b s { s with seq := .run }
  | payload : s.seq = .run → s.cur < s.cap →
      HandleCase b s { s with
        crc := crcUpdate s.crc b
        buf := s.buf.write s.cur b
        cur := cursorNext s.curw s.cur
        cnt := s.cnt + 1#8
        seq := if payloadComplete (s.cnt + 1#8) then .crc1 else s.seq }
  | crcHigh : s.seq = .crc1 → HandleCase b s { s with rxcrc := withHighOctet s.rxcrc b, seq := .crc2 }
  | commit : s.seq = .crc2 → withLowOctet s.rxcrc b = s.crc →
      HandleCase b s { s with
        rxcrc := withLowOctet s.rxcrc b, trace := s.trace ++ [.tx 0x06#8], last := s.blk, seq := .await }
  | reject : s.seq = .crc2 → withLowOctet s.rxcrc b ≠ s.crc →
      HandleCase b s { s with
        rxcrc := withLowOctet s.rxcrc b, trace := s.trace ++ [.tx 0x15#8], cur := cursorRewind s.curw s.cur, seq := .await }
  | terminal : s.seq = .abort ∨ s.seq = .ended → HandleCase b s s

theorem handleByte_cases {b : Byte} {s t : State} (h : handleByte b s = .next t) : HandleCase b s t := by
  cases hq : s.seq <;> simp only [handleByte, hq] at h
  case await =>
    by_cases h1 : b = Config.soh
    · rw [if_pos h1] at h; cases h; exact .soh hq h1
    by_cases h2 : b = Config.eot
    · rw [if_neg h1, if_pos h2] at h; cases h
      simpa [State.putByte, State.setTrace, State.setSeq, Config.ack] using HandleCase.eot hq h2
    by_cases h3 : b = Config.etb
    · rw [if_neg h1, if_neg h2, if_pos h3] at h; cases h; exact .etb hq h3
    · rw [if_neg h1, if_neg h2, if_neg h3] at h; cases h
      exact .other hq (by simp [isAwaitCode, h1, h2, h3])
  case block => cases h; exact .block hq
  case block2 =>
    by_cases hc : b = complement s.blk
    · by_cases hd : s.blk = s.last
      · simp only [execRxBlock2, complementGood, hc, beq_self_eq_true, if_true, isDuplicate, hd] at h
        cases h; exact .duplicate hq hc hd
      · simp only [execRxBlock2, complementGood, hc, beq_self_eq_true, if_true, isDuplicate, beq_eq_false_iff_ne.2 hd] at h
        cases h; exact .fresh hq hc hd
    · simp only [execRxBlock2, complementGood, beq_eq_false_iff_ne.2 hc] at h
      cases h; exact .mismatch hq hc
  case run =>
    by_cases hc : s.cur < s.cap
    · rw [execRxRun_of_lt hc] at h
      have hp := HandleCase.payload (b := b) hq hc
      cases h; exact hp
    · rw [execRxRun_of_ge (Nat.not_lt.1 hc)] at h; cases h
  case crc1 => cases h; exact .crcHigh hq
  case crc2 =>
    by_cases hm : withLowOctet s.rxcrc b = s.crc
    · have hb : crcMatches (s.setRxcrc (withLowOctet s.rxcrc b)) = true := by simp [crcMatches, hm]
      simp only [execRxCrc2, hb, if_true] at h
      cases h; exact .commit hq hm
    · have hb : crcMatches (s.setRxcrc (withLowOctet s.rxcrc b)) = false := by simp [crcMatches, hm]
      simp only [execRxCrc2, hb] at h
      cases h; exact .reject hq hm
  case abort => cases h; exact .terminal (.inl hq)
  case ended => cases h; exact .terminal (.inr hq)

/-- `HandleByte` faults only where `RX.RUN` stores outside the buffer, and is never refused. -/
theorem handleByte_fault {b : Byte} {s : State} {f : Fault} (h : handleByte b s = .fault f) :
    s.seq = .run ∧ s.cap ≤ s.cur ∧ f = .bufferRange s.cur := by
  cases hq : s.seq <;> simp only [handleByte, hq] at h
  case run =>
    by_cases hc : s.cur < s.cap
    · rw [execRxRun_of_lt hc] at h; cases h
    · rw [execRxRun_of_ge (Nat.not_lt.1 hc)] at h
      cases h; exact ⟨rfl, Nat.not_lt.1 hc, rfl⟩
  case await => split at h <;> [cases h; split at h <;> [cases h; split at h <;> cases h]]
  case block2 => simp only [execRxBlock2] at h; split at h <;> cases h
  all_goals cases h

theorem handleByte_ne_refused {b : Byte} {s : State} {r : Refusal} : handleByte b s ≠ .refused r := by
  intro h
  cases hq : s.seq <;> simp only [handleByte, hq] at h
  case run => exact toResult_ne_refused h
  case await => split at h <;> [cases h; split at h <;> [cases h; split at h <;> cases h]]
  case block2 => simp only [execRxBlock2] at h; split at h <;> cases h
  all_goals cases h

/-- What `UploadByte(b)` can do from `s`, with the framer left as `sendBlock` (42_transmit.md R123). -/
inductive UploadCase (b : Byte) (s : State) : Result → Prop
  | handshake : b = 0x43#8 → UploadCase b s (toResult (sendBlock 1#8 { s with blk := 1#8 }))
  | last : b = 0x06#8 → blockCount s.cap < (s.blk + 1#8).toNat →
      UploadCase b s (.next { s with blk := s.blk + 1#8, trace := s.trace ++ [.tx 0x04#8], seq := .ended })
  | next : b = 0x06#8 → (s.blk + 1#8).toNat ≤ blockCount s.cap →
      UploadCase b s (toResult (sendBlock (s.blk + 1#8) { s with blk := s.blk + 1#8 }))
  | resend : isUploadCode b = false → UploadCase b s (toResult (sendBlock s.blk s))

theorem uploadByte_cases (b : Byte) (s : State) : UploadCase b s (uploadByte b s) := by
  unfold uploadByte
  by_cases h1 : b = Config.handshake
  · rw [if_pos h1]; exact .handshake h1
  by_cases h2 : b = Config.ack
  · rw [if_neg h1, if_pos h2]
    by_cases hx : blockCount s.cap < (s.blk + 1#8).toNat
    · have hb : blocksExhausted (s.setBlk (s.blk + 1#8)) = true := blocksExhausted_iff.2 hx
      simp only [execUlAck, hb, if_true]
      exact .last h2 hx
    · have hb : blocksExhausted (s.setBlk (s.blk + 1#8)) = false :=
        Bool.eq_false_iff.2 (fun h => hx (blocksExhausted_iff.1 h))
      simp only [execUlAck, hb]
      exact .next h2 (Nat.not_lt.1 hx)
  · rw [if_neg h1, if_neg h2]
    exact .resend (by simp [isUploadCode, h1, h2])

/-- What `UploadByte(b)` leaves: the end of the upload, or a frame's bytes in the trace with `BLK` and `CRC` changed. -/
theorem uploadByte_next {b : Byte} {s u : State} (h : uploadByte b s = .next u) :
    (b = 0x06#8 ∧ blockCount s.cap < (s.blk + 1#8).toNat ∧
      u = { s with blk := s.blk + 1#8, trace := s.trace ++ [.tx 0x04#8], seq := .ended }) ∨
    ∃ (n : Byte) (c : Word16) (bytes : List Byte), u = { s with blk := n, crc := c, trace := s.trace ++ bytes.map .tx } := by
  have hc := uploadByte_cases b s
  rw [h] at hc
  generalize hr : (Host.Outcome.next u : Result) = r at hc
  cases hc with
  | handshake hb =>
    obtain ⟨bytes, hu⟩ := sendBlock_ok (toResult_eq_next.1 hr.symm)
    exact .inr ⟨_, _, bytes, hu⟩
  | last hb hx => cases hr; exact .inl ⟨hb, hx, rfl⟩
  | next hb hx =>
    obtain ⟨bytes, hu⟩ := sendBlock_ok (toResult_eq_next.1 hr.symm)
    exact .inr ⟨_, _, bytes, hu⟩
  | resend hb =>
    obtain ⟨bytes, hu⟩ := sendBlock_ok (toResult_eq_next.1 hr.symm)
    exact .inr ⟨_, _, bytes, hu⟩

/-! ## The end of a `POLL`: every field but `ROLE` is left alone -/

/-- What a `POLL` leaves after its operation (43_session_timeout.md R142, R149). -/
def closeEnded (u : State) : State := if u.seq = .ended then u.closeSession else u

theorem closeEnded_of_ne {u : State} (h : u.seq ≠ .ended) : closeEnded u = u := if_neg h

theorem closeEnded_of_eq {u : State} (h : u.seq = .ended) : closeEnded u = u.closeSession := if_pos h

@[simp] theorem closeEnded_seq (u : State) : (closeEnded u).seq = u.seq := by unfold closeEnded; split <;> rfl
@[simp] theorem closeEnded_blk (u : State) : (closeEnded u).blk = u.blk := by unfold closeEnded; split <;> rfl
@[simp] theorem closeEnded_cnt (u : State) : (closeEnded u).cnt = u.cnt := by unfold closeEnded; split <;> rfl
@[simp] theorem closeEnded_crc (u : State) : (closeEnded u).crc = u.crc := by unfold closeEnded; split <;> rfl
@[simp] theorem closeEnded_rxcrc (u : State) : (closeEnded u).rxcrc = u.rxcrc := by unfold closeEnded; split <;> rfl
@[simp] theorem closeEnded_cur (u : State) : (closeEnded u).cur = u.cur := by unfold closeEnded; split <;> rfl
@[simp] theorem closeEnded_last (u : State) : (closeEnded u).last = u.last := by unfold closeEnded; split <;> rfl
@[simp] theorem closeEnded_retry (u : State) : (closeEnded u).retry = u.retry := by unfold closeEnded; split <;> rfl
@[simp] theorem closeEnded_cap (u : State) : (closeEnded u).cap = u.cap := by unfold closeEnded; split <;> rfl
@[simp] theorem closeEnded_buf (u : State) : (closeEnded u).buf = u.buf := by unfold closeEnded; split <;> rfl
@[simp] theorem closeEnded_pending (u : State) : (closeEnded u).pending = u.pending := by unfold closeEnded; split <;> rfl
@[simp] theorem closeEnded_elapsed (u : State) : (closeEnded u).elapsed = u.elapsed := by unfold closeEnded; split <;> rfl
@[simp] theorem closeEnded_trace (u : State) : (closeEnded u).trace = u.trace := by unfold closeEnded; split <;> rfl
@[simp] theorem closeEnded_curw (u : State) : (closeEnded u).curw = u.curw := by unfold closeEnded; split <;> rfl
@[simp] theorem closeEnded_ulTimeoutCounts (u : State) : (closeEnded u).ulTimeoutCounts = u.ulTimeoutCounts := by unfold closeEnded; split <;> rfl
@[simp] theorem closeEnded_returned (u : State) : (closeEnded u).returned = u.returned := by unfold closeEnded; split <;> rfl
@[simp] theorem closeEnded_inputs (u : State) : (closeEnded u).inputs = u.inputs := by unfold closeEnded; split <;> rfl
@[simp] theorem closeEnded_role (u : State) : (closeEnded u).role = if u.seq = .ended then .none else u.role := by
  unfold closeEnded; split <;> rfl

/-- `RetryCheck()` in one record. -/
theorem checkRetry_eq (s : State) : checkRetry s = { s with seq := if 15 < s.retry.toNat then .abort else s.seq } := by
  simp only [checkRetry, retryExhausted_iff]
  split <;> rfl

/-- What a step that answers a next state can do, after the environment's part has given `s1`, under the command `c`. -/
inductive StepCase (s1 : State) (c : Option HostCmd) : State → Prop
  | reset : c = some .reset → StepCase s1 c s1.resetRegisters
  | startDl (cap : Nat) : c = some (.startDl cap) → s1.role = .none → capLegal s1.curw cap = true →
      StepCase s1 c ((s1.startSession .dl cap).putByte Config.handshake).timerReset
  | startUl (cap : Nat) : c = some (.startUl cap) → s1.role = .none → capLegal s1.curw cap = true →
      StepCase s1 c (s1.startSession .ul cap).timerReset
  | dlByte (b : Byte) (rest : List Byte) (u : State) : c = none → s1.role = .dl → s1.seq ≠ .abort → s1.seq ≠ .ended →
      s1.pending = b :: rest → handleByte b (s1.setPending rest).timerReset = .next u →
      StepCase s1 c (closeEnded u)
  | ulByte (b : Byte) (rest : List Byte) (u : State) : c = none → s1.role = .ul → s1.seq ≠ .abort → s1.seq ≠ .ended →
      s1.pending = b :: rest → uploadByte b (s1.setPending rest).timerReset = .next u →
      StepCase s1 c (closeEnded u)
  | quiet : c = none → s1.role ≠ .none → s1.seq ≠ .abort → s1.seq ≠ .ended → s1.pending = [] → s1.elapsed ≤ 1000 →
      StepCase s1 c (checkRetry s1)
  | dlTimeout : c = none → s1.role = .dl → s1.seq ≠ .abort → s1.seq ≠ .ended → s1.pending = [] → 1000 < s1.elapsed →
      StepCase s1 c (checkRetry (((s1.putByte Config.handshake).setRetry (s1.retry + 1#8)).timerReset))
  | ulTimeoutCounted : c = none → s1.role = .ul → s1.seq ≠ .abort → s1.seq ≠ .ended → s1.pending = [] → 1000 < s1.elapsed →
      s1.ulTimeoutCounts = true → StepCase s1 c (checkRetry ((s1.setRetry (s1.retry + 1#8)).timerReset))
  | ulTimeoutIgnored : c = none → s1.role = .ul → s1.seq ≠ .abort → s1.seq ≠ .ended → s1.pending = [] → 1000 < s1.elapsed →
      s1.ulTimeoutCounts = false → StepCase s1 c (checkRetry s1)
  | drainByte (b : Byte) (rest : List Byte) : c = none → s1.role ≠ .none → s1.seq = .abort → s1.pending = b :: rest →
      StepCase s1 c (s1.setPending rest)
  | drainEnd : c = none → s1.role ≠ .none → s1.seq = .abort → s1.pending = [] → StepCase s1 c s1.closeSession

/-- The idle operations cannot make `STATE = END`. -/
theorem checkRetry_seq_ne_ended {s : State} (h : s.seq ≠ .ended) : (checkRetry s).seq ≠ .ended := by
  rw [checkRetry_eq]
  simp only
  split
  · simp
  · exact h

theorem finishPoll_eq (u : State) : finishPoll u = .next (closeEnded u) := by
  unfold finishPoll execSessionEnd closeEnded
  split <;> rfl

/-- What the block's own turn decodes to. -/
theorem decodeTurn_running {role : Role} {q : SeqState} {a : Bool} (hr : role ≠ .none) (h1 : q ≠ .abort) (h2 : q ≠ .ended) :
    decodeTurn role q a = decodePoll role a := by
  cases q <;> simp_all [decodeTurn]

theorem idle_cases {role : Role} {f : State → State} {s1 u : State} (h : pollIdle role f s1 = .next u) :
    s1.role = role ∧ s1.seq ≠ .abort ∧ s1.seq ≠ .ended ∧ s1.pending = [] ∧
    u = checkRetry (if 1000 < s1.elapsed then f s1 else s1) := by
  unfold pollIdle at h
  split at h
  · rename_i hc
    simp only [Bool.and_eq_true, pollEnabled_iff, Bool.not_eq_true'] at hc
    obtain ⟨⟨hr, h1, h2⟩, hp⟩ := hc
    have hnil : s1.pending = [] := by simpa [State.byteAvailable] using hp
    cases h
    exact ⟨hr, h1, h2, hnil, by simp only [timedOut_iff]⟩
  · cases h

theorem pollByte_cases {role : Role} {d : Byte → State → Result} {s1 u : State} (h : pollByte role d s1 = .next u) :
    s1.role = role ∧ s1.seq ≠ .abort ∧ s1.seq ≠ .ended ∧
    ∃ b rest, s1.pending = b :: rest ∧ d b (s1.setPending rest).timerReset = .next u := by
  by_cases he : pollEnabled role s1 = true
  · obtain ⟨hr, h1, h2⟩ := pollEnabled_iff.1 he
    cases hp : s1.pending with
    | nil => rw [pollByte_nil hp] at h; cases h
    | cons b rest => rw [pollByte_cons he hp] at h; exact ⟨hr, h1, h2, b, rest, rfl, h⟩
  · rw [pollByte_disabled (by simpa using he)] at h; cases h

/-- A step, unfolded once: the environment's part, the decode, the operation, the end of a `POLL`. -/
theorem step_eq {s s1 : State} {i : Instr} (h1 : s.takeInput = .ok s1) (h2 : decode (s1.selector s.nextInput.cmd) = .ok i) :
    step s = afterOperation i (exec i s1) := by
  simp only [step, stepWith, h1, h2]

theorem afterOperation_poll {i : Instr} {r : Result} (h : isPoll i = true) : afterOperation i r = onNext r finishPoll := by
  simp [afterOperation, h]

theorem step_cases {s t : State} (h : step s = .next t) :
    ∃ s1, s.takeInput = .ok s1 ∧ StepCase s1 s.nextInput.cmd t := by
  unfold step stepWith at h
  cases hin : s.takeInput with
  | error e => simp [hin] at h
  | ok s1 =>
    refine ⟨s1, rfl, ?_⟩
    simp only [hin] at h
    cases hc : s.nextInput.cmd with
    | some c =>
      cases c with
      | reset =>
        simp only [hc, State.selector, decode, decodeHost, afterOperation, isPoll, exec, execReset] at h
        cases h; exact .reset rfl
      | startDl cap =>
        simp only [hc, State.selector, decode, decodeHost, afterOperation, isPoll, exec, execStartDl] at h
        by_cases hr : s1.role = .none
        · by_cases hl : capLegal s1.curw cap = true
          · rw [startCheck_of_legal hr hl] at h
            cases h; exact .startDl cap rfl hr hl
          · rw [startCheck_of_illegal hr (by simpa using hl)] at h; cases h
        · rw [startCheck_of_active hr] at h; cases h
      | startUl cap =>
        simp only [hc, State.selector, decode, decodeHost, afterOperation, isPoll, exec, execStartUl] at h
        by_cases hr : s1.role = .none
        · by_cases hl : capLegal s1.curw cap = true
          · rw [startCheck_of_legal hr hl] at h
            cases h; exact .startUl cap rfl hr hl
          · rw [startCheck_of_illegal hr (by simpa using hl)] at h; cases h
        · rw [startCheck_of_active hr] at h; cases h
    | none =>
      simp only [hc, State.selector, decode] at h
      by_cases hr : s1.role = .none
      · simp [decodeTurn, hr] at h
      by_cases ha : s1.seq = .abort
      · simp only [decodeTurn, ha, afterOperation, isPoll, exec, execDrain, ne_eq, hr, not_false_eq_true,
          and_self, if_true] at h
        cases hp : s1.pending with
        | nil => simp only [getByte_nil hp] at h; cases h; exact .drainEnd rfl hr ha hp
        | cons b rest => simp only [getByte_cons hp] at h; cases h; exact .drainByte b rest rfl hr ha hp
      by_cases he : s1.seq = .ended
      · simp [decodeTurn, hr, he] at h
      rw [decodeTurn_running hr ha he] at h
      cases hrole : s1.role with
      | none => exact absurd hrole hr
      | dl =>
        cases hav : s1.byteAvailable with
        | true =>
          simp only [hrole, hav, decodePoll, afterOperation, isPoll, if_true, exec, execPollDlByte] at h
          obtain ⟨u, hu, ht⟩ := onNext_eq_next.1 h
          obtain ⟨-, -, -, b, rest, hp, hd⟩ := pollByte_cases hu
          rw [finishPoll_eq] at ht
          cases ht; exact .dlByte b rest u rfl hrole ha he hp hd
        | false =>
          simp only [hrole, hav, decodePoll, afterOperation, isPoll, if_true, exec, execPollDlIdle] at h
          obtain ⟨u, hu, ht⟩ := onNext_eq_next.1 h
          obtain ⟨-, -, -, hp, rfl⟩ := idle_cases hu
          rw [finishPoll_eq, closeEnded_of_ne] at ht
          · cases ht
            by_cases ht : 1000 < s1.elapsed
            · simp only [if_pos ht, countTimeout_eq]
              exact .dlTimeout rfl hrole ha he hp ht
            · simp only [if_neg ht]
              exact .quiet rfl hr ha he hp (by omega)
          · apply checkRetry_seq_ne_ended
            split <;> simp [countTimeout_eq, he]
      | ul =>
        cases hav : s1.byteAvailable with
        | true =>
          simp only [hrole, hav, decodePoll, afterOperation, isPoll, if_true, exec, execPollUlByte] at h
          obtain ⟨u, hu, ht⟩ := onNext_eq_next.1 h
          obtain ⟨-, -, -, b, rest, hp, hd⟩ := pollByte_cases hu
          rw [finishPoll_eq] at ht
          cases ht; exact .ulByte b rest u rfl hrole ha he hp hd
        | false =>
          simp only [hrole, hav, decodePoll, afterOperation, isPoll, if_true, exec, execPollUlIdle] at h
          obtain ⟨u, hu, ht⟩ := onNext_eq_next.1 h
          obtain ⟨-, -, -, hp, rfl⟩ := idle_cases hu
          rw [finishPoll_eq, closeEnded_of_ne] at ht
          · cases ht
            by_cases ht : 1000 < s1.elapsed
            · simp only [if_pos ht]
              cases hp' : s1.ulTimeoutCounts with
              | true =>
                simp only [if_true, countTimeout_eq]
                exact .ulTimeoutCounted rfl hrole ha he hp ht hp'
              | false => exact .ulTimeoutIgnored rfl hrole ha he hp ht hp'
            · simp only [if_neg ht]
              exact .quiet rfl hr ha he hp (by omega)
          · apply checkRetry_seq_ne_ended
            split
            · split <;> simp [countTimeout_eq, he]
            · exact he

end Sys2Proof.Machine
end

