-- ==== Sys2Proof/Laws/Run.lean ====
section
/-! SUPPORT. Runs of several steps: one step in front, runs joined end to end, and what a step of a download does while the environment
neither commands nor supplies. -/

namespace Sys2Proof.Machine

/-- A run's first step. -/
theorem run_of_step {k : Nat} {s u : State} (h : step s = .next u) :
    Host.Core.run Sys2Proof.core (k + 1) s = Host.Core.run Sys2Proof.core k u := by
  have hs : Sys2Proof.core.step s = .next u := h
  simp only [Host.Core.run, hs]

/-- Two runs, one after the other. -/
theorem run_append {a b : Nat} {s u : State} (h : Host.Core.run Sys2Proof.core a s = .next u) :
    Host.Core.run Sys2Proof.core (a + b) s = Host.Core.run Sys2Proof.core b u := by
  induction a generalizing s with
  | zero => cases h; simp
  | succ a ih =>
    rw [Nat.succ_add]
    simp only [Host.Core.run] at h
    cases hs : Sys2Proof.core.step s with
    | next v => rw [hs] at h; rw [run_of_step hs]; exact ih h
    | fault f => rw [hs] at h; cases h
    | refused r => rw [hs] at h; cases h

/-- Where no coming input commands or supplies, the next one does not. -/
theorem nextInput_of_silent {s : State} (h : ∀ e ∈ s.inputs, e.cmd = none ∧ e.supply = none) :
    s.nextInput.cmd = none ∧ s.nextInput.supply = none := by
  unfold State.nextInput
  cases hi : s.inputs with
  | nil => exact ⟨rfl, rfl⟩
  | cons e l => exact h e (by simp [hi])

/-- A step of a running download that has a byte pending: the byte is taken, the timer is reset, the byte is dispatched. -/
theorem step_of_download_byte {s : State} {b : Byte} {rest : List Byte} (hc : s.nextInput.cmd = none)
    (hs : s.nextInput.supply = none) (hr : s.role = .dl) (h1 : s.seq ≠ .abort) (h2 : s.seq ≠ .ended) (hp : s.pending = b :: rest) :
    step s = onNext (handleByte b { s with
      pending := rest ++ s.nextInput.arrivals
      elapsed := 0
      inputs := s.inputs.tail
      trace := s.trace ++ [.trst] }) finishPoll := by
  have hin : s.takeInput = .ok { s with
      pending := s.pending ++ s.nextInput.arrivals
      elapsed := s.elapsed + s.nextInput.wait
      inputs := s.inputs.tail } := by
    simp [State.takeInput, hs, State.takeSupply, Except.map, State.setInputs, State.setElapsed, State.setPending]
  rw [step_eq (i := .pollDlByte) hin, afterOperation_poll rfl]
  · simp only [exec, execPollDlByte]
    rw [pollByte_cons (s := { s with
      pending := s.pending ++ s.nextInput.arrivals
      elapsed := s.elapsed + s.nextInput.wait
      inputs := s.inputs.tail }) (b := b) (rest := rest ++ s.nextInput.arrivals) (pollEnabled_iff.2 ⟨hr, h1, h2⟩) (by simp [hp])]
    rfl
  · simp [hc, State.selector, decode, hr, decodeTurn_running (role := .dl) (by simp) h1 h2, State.byteAvailable, hp, decodePoll]

end Sys2Proof.Machine
end

