-- ==== Sys2Proof/Laws/Safety.lean ====
section
/-! SUPPORT. One lemma for each field after a frame has been sent, and for each field of the environment that does nothing. -/

namespace Sys2Proof.Machine

@[simp] theorem State.sentBlock_seq (s : State) (n : Byte) : (s.sentBlock n).seq = s.seq := by rw [State.sentBlock]
@[simp] theorem State.sentBlock_blk (s : State) (n : Byte) : (s.sentBlock n).blk = s.blk := by rw [State.sentBlock]
@[simp] theorem State.sentBlock_cnt (s : State) (n : Byte) : (s.sentBlock n).cnt = s.cnt := by rw [State.sentBlock]
@[simp] theorem State.sentBlock_crc (s : State) (n : Byte) : (s.sentBlock n).crc = crcOf (s.blockPayload n) := by rw [State.sentBlock]
@[simp] theorem State.sentBlock_rxcrc (s : State) (n : Byte) : (s.sentBlock n).rxcrc = s.rxcrc := by rw [State.sentBlock]
@[simp] theorem State.sentBlock_cur (s : State) (n : Byte) : (s.sentBlock n).cur = s.cur := by rw [State.sentBlock]
@[simp] theorem State.sentBlock_last (s : State) (n : Byte) : (s.sentBlock n).last = s.last := by rw [State.sentBlock]
@[simp] theorem State.sentBlock_retry (s : State) (n : Byte) : (s.sentBlock n).retry = s.retry := by rw [State.sentBlock]
@[simp] theorem State.sentBlock_cap (s : State) (n : Byte) : (s.sentBlock n).cap = s.cap := by rw [State.sentBlock]
@[simp] theorem State.sentBlock_role (s : State) (n : Byte) : (s.sentBlock n).role = s.role := by rw [State.sentBlock]
@[simp] theorem State.sentBlock_buf (s : State) (n : Byte) : (s.sentBlock n).buf = s.buf := by rw [State.sentBlock]
@[simp] theorem State.sentBlock_pending (s : State) (n : Byte) : (s.sentBlock n).pending = s.pending := by rw [State.sentBlock]
@[simp] theorem State.sentBlock_elapsed (s : State) (n : Byte) : (s.sentBlock n).elapsed = s.elapsed := by rw [State.sentBlock]
@[simp] theorem State.sentBlock_trace (s : State) (n : Byte) : (s.sentBlock n).trace = s.trace ++ (frameBytes n (s.blockPayload n) (crcOf (s.blockPayload n))).map .tx := by rw [State.sentBlock]
@[simp] theorem State.sentBlock_curw (s : State) (n : Byte) : (s.sentBlock n).curw = s.curw := by rw [State.sentBlock]
@[simp] theorem State.sentBlock_ulTimeoutCounts (s : State) (n : Byte) : (s.sentBlock n).ulTimeoutCounts = s.ulTimeoutCounts := by rw [State.sentBlock]
@[simp] theorem State.sentBlock_returned (s : State) (n : Byte) : (s.sentBlock n).returned = s.returned := by rw [State.sentBlock]
@[simp] theorem State.sentBlock_inputs (s : State) (n : Byte) : (s.sentBlock n).inputs = s.inputs := by rw [State.sentBlock]

@[simp] theorem EnvInput.quiet_supply : EnvInput.quiet.supply = none := rfl
@[simp] theorem EnvInput.quiet_arrivals : EnvInput.quiet.arrivals = [] := rfl
@[simp] theorem EnvInput.quiet_wait : EnvInput.quiet.wait = 0 := rfl
@[simp] theorem EnvInput.quiet_cmd : EnvInput.quiet.cmd = none := rfl

/-- A slice of 128 bytes is what a frame carries. -/
@[simp] theorem State.length_blockPayload (s : State) (n : Byte) : (s.blockPayload n).length = 128 := by
  simp [State.blockPayload, Memory.slice]

end Sys2Proof.Machine
end

