-- ==== Sys2Proof/Tests/Slice0.lean ====
section
/-! SUPPORT. Tests of one step each, with expected values from spec/95_test_vectors.md (the vector's number in the name or the comment)
or worked out by hand from the rule named; the refusals of WellFormed; the decoding of every constructor from a selector written out;
and for each obligation with hypotheses a state and operands that meet them, at the boundaries of each clause. -/

namespace Sys2Proof.Tests

open Sys2Proof.Machine

/-! ## States -/

/-- A download with 256 bytes of buffer. -/
def dl (q : SeqState) : State := { State.reset with role := .dl, seq := q, cap := 256, blk := 1#8 }

/-- An upload with 256 bytes of buffer. -/
def ul : State := { State.reset with role := .ul, cap := 256, blk := 1#8 }

/-- The byte waits at the transport. -/
def given (s : State) (b : Byte) : State := { s with pending := [b] }

/-- The environment's coming input is one command. -/
def told (s : State) (c : HostCmd) : State := { s with inputs := [{ supply := none, arrivals := [], wait := 0, cmd := some c }] }

/-- The environment's coming input is a silence. -/
def silent (s : State) (ms : Nat) : State := { s with inputs := [{ supply := none, arrivals := [], wait := ms, cmd := none }] }

/-- The environment's coming input is a store. -/
def supplied (s : State) (bytes : List Byte) : State :=
  { s with inputs := [{ supply := some bytes, arrivals := [], wait := 0, cmd := some (.startDl 128) }] }

/-- Does the outcome give a next state of which `p` holds? -/
def gives (r : Result) (p : State → Bool) : Bool :=
  match r with
  | .next t => p t
  | .fault _ => false
  | .refused _ => false

/-- Is the outcome this fault? -/
def faults (r : Result) (f : Fault) : Bool :=
  match r with
  | .fault g => g == f
  | .next _ => false
  | .refused _ => false

/-- Is the outcome this refusal? -/
def refuses (r : Result) (e : Refusal) : Bool :=
  match r with
  | .refused g => g == e
  | .next _ => false
  | .fault _ => false

/-! ## WellFormed refuses an "any other" row with an exact row's byte (30_encoding.md R79) -/

theorem test_illformed_await_soh : (Instr.rxAwaitOther 0x01#8).wellFormed = false := by decide
theorem test_illformed_await_eot : (Instr.rxAwaitOther 0x04#8).wellFormed = false := by decide
theorem test_illformed_await_etb : (Instr.rxAwaitOther 0x17#8).wellFormed = false := by decide
theorem test_illformed_upload_c : (Instr.ulOther 0x43#8).wellFormed = false := by decide
theorem test_illformed_upload_ack : (Instr.ulOther 0x06#8).wellFormed = false := by decide
theorem test_wellformed_other_bytes : (Instr.rxAwaitOther 0x43#8).wellFormed = true ∧ (Instr.ulOther 0x01#8).wellFormed = true := by
  decide

/-! ## Decoding of every constructor, from the "Selected by" column of 30_encoding.md R79 -/

theorem test_decode_internal :
    decode ⟨.dl, .run, .callCrcUpdate 0xFFFF#16 0x31#8⟩ = .ok (.crcUpdate 0xFFFF#16 0x31#8) ∧
    decode ⟨.ul, .await, .callSendBlock 0xFF#8⟩ = .ok (.txSendBlock 0xFF#8) ∧
    decode ⟨.ul, .await, .callRetryCheck⟩ = .ok .retryCheck ∧ decode ⟨.ul, .ended, .callSessionEnd⟩ = .ok .sessionEnd := by decide
theorem test_decode_await :
    decode ⟨.dl, .await, .byte 0b00000001#8⟩ = .ok .rxAwaitSoh ∧ decode ⟨.dl, .await, .byte 0b00000100#8⟩ = .ok .rxAwaitEot ∧
    decode ⟨.dl, .await, .byte 0b00010111#8⟩ = .ok .rxAwaitEtb ∧
    decode ⟨.dl, .await, .byte 0b01000011#8⟩ = .ok (.rxAwaitOther 0x43#8) := by decide
theorem test_decode_frame_states :
    decode ⟨.dl, .block, .byte 0b00000100#8⟩ = .ok (.rxBlock 0x04#8) ∧ decode ⟨.dl, .block2, .byte 0b11111110#8⟩ = .ok (.rxBlock2 0xFE#8) ∧
    decode ⟨.dl, .run, .byte 0b00000001#8⟩ = .ok (.rxRun 0x01#8) ∧ decode ⟨.dl, .crc1, .byte 0b11101000#8⟩ = .ok (.rxCrc1 0xE8#8) ∧
    decode ⟨.dl, .crc2, .byte 0b00001010#8⟩ = .ok (.rxCrc2 0x0A#8) := by decide
theorem test_decode_terminal :
    decode ⟨.dl, .abort, .byte 0b00000001#8⟩ = .ok (.rxTerminal 0x01#8) ∧
    decode ⟨.dl, .ended, .byte 0b00000100#8⟩ = .ok (.rxTerminal 0x04#8) := by decide
theorem test_decode_upload :
    decode ⟨.ul, .await, .byte 0b01000011#8⟩ = .ok .ulC ∧ decode ⟨.ul, .await, .byte 0b00000110#8⟩ = .ok .ulAck ∧
    decode ⟨.ul, .await, .byte 0b00010101#8⟩ = .ok (.ulOther 0x15#8) := by decide
theorem test_decode_host :
    decode ⟨.none, .await, .host (.startDl 128)⟩ = .ok (.startDl 128) ∧
    decode ⟨.none, .ended, .host (.startUl 65408)⟩ = .ok (.startUl 65408) ∧
    decode ⟨.ul, .abort, .host .reset⟩ = .ok .reset := by decide
theorem test_decode_turn :
    decode ⟨.dl, .crc2, .turn true⟩ = .ok .pollDlByte ∧ decode ⟨.ul, .await, .turn true⟩ = .ok .pollUlByte ∧
    decode ⟨.dl, .run, .turn false⟩ = .ok .pollDlIdle ∧ decode ⟨.ul, .await, .turn false⟩ = .ok .pollUlIdle ∧
    decode ⟨.dl, .abort, .turn true⟩ = .ok .drain ∧ decode ⟨.ul, .abort, .turn false⟩ = .ok .drain := by decide
theorem test_decode_rejected :
    decode ⟨.none, .await, .byte 0x01#8⟩ = .error .noSession ∧ decode ⟨.none, .abort, .turn true⟩ = .error .noSession ∧
    decode ⟨.dl, .ended, .turn true⟩ = .error .sessionOver ∧ decodeWire .dl .await [] = .error .noByte ∧
    decodeWire .dl .run [0x01#8, 0x02#8] = .ok (.rxRun 0x01#8, [0x02#8]) := by decide
theorem test_table_words :
    decodeTableWord 8 0x01 = some .rxAwaitSoh ∧ decodeTableWord 8 0x04 = some .rxAwaitEot ∧ decodeTableWord 8 0x17 = some .rxAwaitEtb ∧
    decodeTableWord 8 0x43 = some .ulC ∧ decodeTableWord 8 0x06 = some .ulAck ∧ decodeTableWord 8 0x00 = some (.rxAwaitOther 0x00#8) ∧
    decodeTableWord 16 0x01 = none := by decide

/-! ## The CRC engine (T2, T5, T6, T12 to T14, T24) and frames (T37) -/

theorem test_T2_T12_update : crcUpdate 0x0000#16 0x01#8 = 0x1021#16 ∧ crcUpdate 0xFFFF#16 0x00#8 = 0xE1F0#16 ∧
    crcUpdate 0xFFFF#16 0xFF#8 = 0xFF00#16 ∧ crcUpdate 0x1234#16 0x56#8 = 0x3C40#16 := by decide
theorem test_T13_crcUpdate : gives (exec (.crcUpdate 0x0000#16 0x31#8) { dl .run with crc := 0xE80A#16 })
    (fun t => t.returned == some 0x2672#16 && t.crc == 0xE80A#16) = true := by decide
theorem test_T14_sequence :
    crcOf [0x31#8, 0x32#8, 0x33#8, 0x34#8, 0x35#8, 0x36#8, 0x37#8, 0x38#8, 0x39#8] = 0x31C3#16 := by decide +kernel
theorem test_T24_running_values : crcOf [0x00#8, 0x01#8] = 0x1021#16 ∧ crcOf [0x00#8, 0x01#8, 0x02#8, 0x03#8] = 0x6131#16 := by
  decide +kernel
theorem test_T37_complement : complement 0x00#8 = 0xFF#8 ∧ complement 0x7F#8 = 0x80#8 ∧ complement 0xFF#8 = 0x00#8 := by decide

/-! ## The receive machine (T40 to T62): the polls' steps, and the transitions themselves -/

theorem test_T40_soh : gives (step (given { dl .await with cnt := 128#8, crc := 0xE80A#16 } 0x01#8))
    (fun t => t.seq == .block && t.cnt == 0#8 && t.crc == 0#16 && t.trace == [.trst]) = true := by decide
theorem test_T41_eot : gives (step (given { dl .await with cur := 256 } 0x04#8))
    (fun t => t.seq == .ended && t.role == .none && t.cur == 256 && t.trace == [.trst, .tx 0x06#8, .tx 0x06#8]) = true := by decide
theorem test_T43_etb : gives (step (given (dl .await) 0x17#8))
    (fun t => t.seq == .ended && t.role == .none && t.trace == [.trst, .tx 0x06#8]) = true := by decide
theorem test_T45_cancel_aborts : gives (step (given (dl .await) 0x18#8))
    (fun t => t.seq == .abort && t.role == .dl && t.trace == [.trst]) = true := by decide
theorem test_T47_block : gives (step (given (dl .block) 0x05#8)) (fun t => t.seq == .block2 && t.blk == 0x05#8) = true := by decide
theorem test_T50_T51_rewind :
    gives (exec (.rxBlock2 0xFE#8) { dl .block2 with last := 1#8, cur := 128 }) (fun t => t.seq == .run && t.cur == 0) = true ∧
    gives (exec (.rxBlock2 0xFF#8) { dl .block2 with blk := 0#8 }) (fun t => t.seq == .run && t.cur == 65408) = true := by decide
theorem test_T52_mismatch_does_not_rewind :
    gives (exec (.rxBlock2 0x00#8) { dl .block2 with last := 1#8, cur := 128 }) (fun t => t.seq == .abort && t.cur == 128) = true := by
  decide
theorem test_T56_last_payload_byte :
    gives (exec (.rxRun 0x7F#8) { dl .run with cnt := 127#8, crc := 0x3141#16, cur := 127 })
      (fun t => t.seq == .crc1 && t.cnt == 128#8 && t.crc == 0xE80A#16 && t.cur == 128 && t.buf.read 127 == 0x7F#8) = true := by decide
theorem test_T62_overrun : faults (exec (.rxRun 0x00#8) { dl .run with cur := 256 }) (.bufferRange 256) = true := by decide
theorem test_T61_high_octet_only :
    gives (exec (.rxCrc1 0x53#8) { dl .crc1 with rxcrc := 0xE80B#16 }) (fun t => t.seq == .crc2 && t.rxcrc == 0x530B#16) = true := by decide
theorem test_T58_commit :
    gives (exec (.rxCrc2 0x0A#8) { dl .crc2 with rxcrc := 0xE800#16, crc := 0xE80A#16, cur := 128 })
      (fun t => t.seq == .await && t.rxcrc == 0xE80A#16 && t.last == 1#8 && t.cur == 128 && t.trace == [.tx 0x06#8]) = true := by decide
theorem test_T59_reject :
    gives (exec (.rxCrc2 0x0B#8) { dl .crc2 with rxcrc := 0xE800#16, crc := 0xE80A#16, cur := 128 })
      (fun t => t.seq == .await && t.rxcrc == 0xE80B#16 && t.last == 0#8 && t.cur == 0 && t.trace == [.tx 0x15#8]) = true := by decide
/-- 41_receive.md R110. -/
theorem test_terminal_absorbs : gives (exec (.rxTerminal 0x01#8) (dl .abort)) (fun t => t == dl .abort) = true := by decide

/-! ## The transmit driver and the upload (T42, T72 to T85), over a buffer of zeros: the frames carry 128 times 00 and CRC 0000 (T22) -/

theorem test_T42_T72_T73_offsets : txOffset 16 256 0#8 = 0 ∧ rawOffset 16 0#8 = 65408 ∧ txOffset 16 256 2#8 = 128 ∧
    txOffset 16 256 3#8 = 0 ∧ txOffset 16 256 255#8 = 0 := by decide
/-- 42_transmit.md R120 in 12 bits, by hand: 128 * 33 is 4224, and 4224 - 4096 is 128, below the largest legal capacity 3968. -/
theorem test_offset_in_12_bits : txOffset 12 3968 34#8 = 128 ∧ txOffset 12 3968 31#8 = 3840 ∧ txOffset 12 3968 0#8 = 0 := by decide
/-- 00_scope.md R6, 10_state.md R25, R28 for a launch with `CURW` = 8, by hand: 128 is the only legal capacity, and 0 - 128 is 128. -/
theorem test_launch_with_8_bits :
    gives (exec (.startDl 128) { State.reset with curw := 8 }) (fun t => t.cap == 128 && t.curw == 8) = true ∧
    refuses (exec (.startUl 256) { State.reset with curw := 8 }) .illegalCapacity = true ∧
    gives (exec (.rxBlock2 0xFF#8) { dl .block2 with blk := 0#8, curw := 8 }) (fun t => t.cur == 128) = true := by decide
/-- 30_encoding.md R76, R77. -/
theorem test_register_codes : seqCode .await = 0b000#3 ∧ seqCode .run = 0b011#3 ∧ seqCode .abort = 0b110#3 ∧ seqCode .ended = 0b111#3 ∧
    roleCode .none = 0b00#2 ∧ roleCode .dl = 0b01#2 ∧ roleCode .ul = 0b10#2 := by decide
theorem test_T36_sendBlock : gives (exec (.txSendBlock 255#8) ul)
    (fun t => t.trace.take 4 == [.tx 0x01#8, .tx 0xFF#8, .tx 0x00#8, .tx 0x00#8] && t.trace.length == 133 && t.blk == 1#8) = true := by
  decide +kernel
theorem test_T75_handshake_restarts : gives (step (given { ul with blk := 2#8 } 0x43#8))
    (fun t => t.blk == 1#8 && t.trace.take 4 == [.trst, .tx 0x01#8, .tx 0x01#8, .tx 0xFE#8] && t.trace.length == 134) = true := by
  decide +kernel
theorem test_T76_next_block : gives (step (given ul 0x06#8))
    (fun t => t.blk == 2#8 && t.seq == .await && t.trace.take 4 == [.trst, .tx 0x01#8, .tx 0x02#8, .tx 0xFD#8]) = true := by
  decide +kernel
theorem test_T77_end : gives (step (given { ul with blk := 2#8, crc := 0x53E8#16 } 0x06#8))
    (fun t => t.blk == 3#8 && t.seq == .ended && t.role == .none && t.crc == 0x53E8#16 && t.trace == [.trst, .tx 0x04#8]) = true := by
  decide +kernel
theorem test_T81_cancel_resends : gives (step (given ul 0x18#8))
    (fun t => t.blk == 1#8 && t.trace.take 3 == [.trst, .tx 0x01#8, .tx 0x01#8] && t.trace.length == 134) = true := by
  decide +kernel

/-! ## Session start, timeouts, retry, drain, reset (T90 to T114) -/

theorem test_T90_start_download : gives (step (told State.reset (.startDl 256)))
    (fun t => t.role == .dl && t.seq == .await && t.blk == 1#8 && t.last == 0#8 && t.cap == 256 && t.trace == [.tx 0x43#8, .trst]) = true := by
  decide
theorem test_T91_start_upload : gives (step (told State.reset (.startUl 256)))
    (fun t => t.role == .ul && t.blk == 1#8 && t.cap == 256 && t.trace == [.trst]) = true := by decide
theorem test_T111_T112_capacities :
    [0, 100, 127, 129, 65409, 65536].all (fun c => refuses (exec (.startDl c) State.reset) .illegalCapacity) = true ∧
    [128, 65280, 65408].all (fun c => gives (exec (.startUl c) State.reset) (fun t => t.cap == c)) = true := by decide
theorem test_T113_start_in_session : refuses (step (told (dl .run) (.startUl 256))) .sessionActive = true ∧
    refuses (step (told ul (.startDl 100))) .sessionActive = true := by decide
theorem test_T92_T94_timeout_is_strict :
    gives (step (silent (dl .await) 1000)) (fun t => t.retry == 0#8 && t.trace == [] && t.elapsed == 1000) = true ∧
    gives (step (silent (dl .await) 1001)) (fun t => t.retry == 1#8 && t.trace == [.tx 0x43#8, .trst] && t.elapsed == 0) = true := by decide
theorem test_T95_T96_ceiling :
    gives (step (silent { dl .await with retry := 14#8 } 1001)) (fun t => t.retry == 15#8 && t.seq == .await) = true ∧
    gives (step (silent { dl .run with retry := 15#8 } 2000)) (fun t => t.retry == 16#8 && t.seq == .abort) = true := by decide
theorem test_T99_T100_upload_timeout :
    gives (step (silent { ul with retry := 3#8 } 2000)) (fun t => t.retry == 4#8 && t.trace == [.trst]) = true ∧
    gives (step (silent { ul with retry := 3#8, ulTimeoutCounts := false } 2000)) (fun t => t.retry == 3#8 && t.trace == []) = true := by
  decide
theorem test_retryCheck_strict : gives (exec .retryCheck { ul with retry := 15#8 }) (fun t => t.seq == .await) = true ∧
    gives (exec .retryCheck { ul with retry := 16#8 }) (fun t => t.seq == .abort) = true := by decide
/-- 43_session_timeout.md R149. -/
theorem test_sessionEnd : gives (exec .sessionEnd (dl .ended)) (fun t => t.role == .none && t.seq == .ended) = true := by decide
theorem test_T105_drain : gives (step (given (dl .abort) 0x41#8)) (fun t => t.role == .dl && t.pending == [] && t.trace == []) = true ∧
    gives (step (dl .abort)) (fun t => t == { dl .abort with role := .none }) = true := by decide
theorem test_T110_reset : gives (step (told { dl .block2 with blk := 7#8, buf := [(3, 0x55#8)] } .reset))
    (fun t => t == { State.reset with buf := [(3, 0x55#8)] }) = true := by decide
theorem test_T114_no_session : refuses (step State.reset) .notEnabled = true ∧
    refuses (step (given { State.reset with seq := .abort } 0x06#8)) .notEnabled = true := by decide
/-- 93_implementation_defined.md U13, 00_scope.md R14. -/
theorem test_supply : refuses (step (supplied (dl .run) [0xEE#8])) .bufferInUse = true ∧
    gives (step (supplied State.reset [0x00#8, 0xEE#8])) (fun t => t.buf == [(1, 0xEE#8)] && t.role == .dl) = true := by decide
/-- 00_scope.md R14, 92_eei_decisions.md D30: the host reads when the session is over. -/
theorem test_host_reads : ({ dl .ended with role := .none, cur := 256 } : State).hostOutcome = some .ended ∧
    ({ dl .ended with role := .none, cur := 256 } : State).hostCount = some 256 ∧ (dl .run).hostOutcome = none := by decide
/-- 10_state.md R36: RESET from the state after reset changes nothing. -/
theorem test_reset_state : gives (exec .reset State.reset) (fun t => t == State.reset) = true := by decide

/-! ## Witnesses: for each obligation with hypotheses, a state and operands that meet them, at the boundaries of its clauses -/

/-- A frame of number 1 whose payload is 128 times 00 and whose CRC is 0000 (T22, T36). -/
def zeroFrame : List Byte := [0x01#8, 0x01#8, 0xFE#8] ++ List.replicate 130 0x00#8

/-- A state that meets `Inv`: a download about to compare the CRC of a stored payload of zeros. -/
def beforeCompare : State := { dl .crc2 with cnt := 128#8, cur := 128 }

/-- A download at the last payload byte, at the last byte of its buffer. -/
def lastByte : State := { dl .run with cnt := 127#8, cur := 255 }

/-- A download that has received more blocks than its buffer holds (T62). -/
def overrun : State := given { dl .run with cur := 256 } 0x00#8

theorem inv_dl : Inv (dl .await) := by constructor <;> decide
theorem inv_ul : Inv ul := by constructor <;> decide
theorem inv_beforeCompare : Inv beforeCompare := by constructor <;> decide
theorem inv_lastByte : Inv (given lastByte 0x00#8) := by constructor <;> decide
theorem inv_overrun : Inv overrun := by constructor <;> decide
theorem crc_zero_payload : crcOf (List.replicate 128 0x00#8) = 0#16 := by
  have h : crcUpdate 0#16 0#8 = 0#16 := by decide
  have hk : ∀ k, crcFold 0#16 (List.replicate k 0#8) = 0#16 := by
    intro k
    induction k with
    | zero => rfl
    | succ k ih => simpa [List.replicate_succ, crcFold, h] using ih
  exact hk 128

theorem coherent_beforeCompare : PayloadCoherent beforeCompare := by
  intro _ _
  refine ⟨by decide, by decide, ?_⟩
  have hs : beforeCompare.buf.slice (beforeCompare.cur - beforeCompare.cnt.toNat) beforeCompare.cnt.toNat =
      List.replicate 128 0x00#8 := by decide +kernel
  rw [hs, crc_zero_payload]
  rfl

/-- A step that answers a next state of which `p` holds. -/
def StepsTo (s : State) (p : State → Prop) : Prop := ∃ t, step s = .next t ∧ p t

theorem witness_DecodeEncodeRoundTrip : (Instr.rxAwaitOther 0xFF#8).wellFormed = true ∧ (Instr.rxAwaitOther 0x00#8).wellFormed = true ∧
    (Instr.ulOther 0xFF#8).wellFormed = true ∧ (Instr.startDl 65536).wellFormed = true := by decide
theorem witness_FrameLayout : (List.replicate 128 0xFF#8).length = 128 := List.length_replicate
theorem witness_StepRunsDecodedOperation : ∃ s1, (given (dl .await) 0x01#8).takeInput = .ok s1 ∧
    decode (s1.selector (given (dl .await) 0x01#8).nextInput.cmd) = .ok .pollDlByte := ⟨_, rfl, rfl⟩
theorem witness_StepRunsDecodedOperation_command : ∃ s1, (told ul .reset).takeInput = .ok s1 ∧
    decode (s1.selector (told ul .reset).nextInput.cmd) = .ok .reset := ⟨_, rfl, rfl⟩
theorem witness_EnvironmentPartOfAStep : (dl .run).nextInput.supply = none ∧
    ((supplied State.reset [0xEE#8]).nextInput.supply = some [0xEE#8] ∧ (supplied State.reset [0xEE#8]).role = .none) ∧
    (supplied ul [0xEE#8]).nextInput.supply ≠ none ∧ (supplied ul [0xEE#8]).role ≠ .none := by decide
theorem witness_SuppliedStoreReadsAsItsBytes : 1 < [0x00#8, 0xEE#8].length ∧ [0x00#8, 0xEE#8].length ≤ 2 := by decide
theorem witness_PollRunsDecodedByte : ((given (dl .crc2) 0x0A#8).running ∧ (given (dl .crc2) 0x0A#8).pending = [0x0A#8] ∧
      decode ⟨.dl, .crc2, .byte 0x0A#8⟩ = .ok (.rxCrc2 0x0A#8) ∧ (given (dl .crc2) 0x0A#8).role = .dl) ∧
    ((given ul 0x06#8).running ∧ (given ul 0x06#8).pending = [0x06#8] ∧ decode ⟨.ul, .await, .byte 0x06#8⟩ = .ok .ulAck ∧
      (given ul 0x06#8).role = .ul) := by unfold State.running; decide
theorem witness_FetchWordRunsFirst : decodeTableWord 8 0x43 = some .ulC ∧ decodeTableWord 8 0xFF = some (.rxAwaitOther 0xFF#8) := by
  decide
theorem witness_BufferAccess : Memory.wf (dl .run).buf = true ∧ 255 < (dl .run).cap ∧ (dl .run).cap ≤ 256 := by decide
theorem witness_CanonicalMemoryIsItsContents : Memory.wf [(0, 0x01#8), (65535, 0xFF#8)] = true ∧
    ∀ a, Memory.read [(0, 0x01#8), (65535, 0xFF#8)] a = Memory.read [(0, 0x01#8), (65535, 0xFF#8)] a := ⟨by decide, fun _ => rfl⟩
theorem witness_AwaitTransitions : (0x18#8 : Byte) ≠ 0x01#8 ∧ (0x18#8 : Byte) ≠ 0x04#8 ∧ (0x18#8 : Byte) ≠ 0x17#8 := by decide
theorem witness_ComplementCheck : (0x00#8 : Byte).toNat + (dl .block2).blk.toNat ≠ 255 ∧
    ((0xFF#8 : Byte).toNat + { dl .block2 with blk := 0#8 }.blk.toNat = 255 ∧ (0#8 : Byte) = (dl .block2).last) ∧
    ((0x00#8 : Byte).toNat + { dl .block2 with blk := 255#8 }.blk.toNat = 255 ∧ (255#8 : Byte) ≠ (dl .block2).last) := by decide
theorem witness_PayloadByte : Memory.wf lastByte.buf = true ∧ lastByte.cur < lastByte.cap ∧
    overrun.cap ≤ overrun.cur ∧ Memory.wf overrun.buf = true := by decide
theorem witness_CrcTrailerResults : (joinOctets 0xE8#8 0x0A#8 : Word16) = { dl .crc2 with crc := 0xE80A#16 }.crc ∧
    (joinOctets 0xE8#8 0x0B#8 : Word16) ≠ { dl .crc2 with crc := 0xE80A#16 }.crc := by decide
theorem witness_InternalActions : 15 < { ul with retry := 16#8 }.retry.toNat ∧ { ul with retry := 15#8 }.retry.toNat ≤ 15 := by decide
theorem witness_ProtocolViolation : ((given (dl .await) 0x18#8).role = .dl ∧ (given (dl .await) 0x18#8).pending = [0x18#8] ∧
      (given (dl .await) 0x18#8).seq = .await ∧ (0x18#8 : Byte) ≠ 0x01#8 ∧ (0x18#8 : Byte) ≠ 0x04#8 ∧ (0x18#8 : Byte) ≠ 0x17#8) ∧
    ((given (dl .block2) 0xFD#8).pending = [0xFD#8] ∧ (given (dl .block2) 0xFD#8).seq = .block2 ∧
      (0xFD#8 : Byte).toNat + (given (dl .block2) 0xFD#8).blk.toNat ≠ 255) := by decide
theorem witness_ProtocolViolation_upload : ∃ t, exec .ulAck { ul with blk := 2#8 } = .next t ∧ ({ ul with blk := 2#8 } : State).seq ≠ .abort :=
  ⟨_, rfl, by decide⟩
theorem witness_TransmitOffset : (capLegal 8 128 = true ∧ 1 ≤ (1#8 : Byte).toNat ∧ (1#8 : Byte).toNat ≤ 128 / 128) ∧
    capLegal 12 3968 = true ∧ (capLegal 15 32640 = true ∧ (255#8 : Byte).toNat ≤ 32640 / 128) ∧ capLegal 16 65408 = true := by decide
theorem witness_SendBlock : capLegal ul.curw ul.cap = true ∧ capLegal 16 128 = true ∧ capLegal 16 65408 = true ∧ capLegal 8 128 = true := by
  decide
theorem witness_HandshakeAndResend : (0xFF#8 : Byte) ≠ 0x43#8 ∧ (0xFF#8 : Byte) ≠ 0x06#8 := by decide
theorem witness_UploadOperationResults : capLegal ul.curw ul.cap = true ∧ ul.cap / 128 < ({ ul with blk := 2#8 }.blk.toNat + 1) % 256 ∧
    (ul.blk.toNat + 1) % 256 ≤ ul.cap / 128 ∧ ({ ul with blk := 255#8 }.blk.toNat + 1) % 256 ≤ ul.cap / 128 := by decide
theorem witness_UploadEnds : capLegal ul.curw ul.cap = true ∧ ul.seq = .await ∧ capLegal ul.curw 32640 = true ∧
    255 * 128 ≤ 32640 := by decide
theorem witness_StartResults : State.reset.role = .none ∧ (128 % 128 = 0 ∧ 128 + 128 ≤ 2 ^ State.reset.curw) ∧
    (65408 % 128 = 0 ∧ 65408 + 128 ≤ 2 ^ State.reset.curw) := by decide
theorem witness_StartRefusals : ul.role ≠ .none ∧ State.reset.role = .none ∧ 129 % 128 ≠ 0 ∧ 0 < 128 ∧
    2 ^ State.reset.curw < 65536 + 128 ∧ 2 ^ State.reset.curw < 65409 + 128 := by decide
theorem witness_DownloadByteCompletes : (given lastByte 0x00#8).role = .dl ∧ (given lastByte 0x00#8).running ∧
    (given lastByte 0x00#8).pending = [0x00#8] ∧ (given lastByte 0x00#8).seq = .run ∧
    (given lastByte 0x00#8).cur < (given lastByte 0x00#8).cap ∧ (given (dl .await) 0x04#8).seq ≠ .run := by
  unfold State.running; decide
theorem witness_DownloadByteFaults : overrun.role = .dl ∧ overrun.running ∧ overrun.pending = [0x00#8] ∧ overrun.seq = .run ∧
    overrun.cap ≤ overrun.cur := by unfold State.running; decide
theorem witness_UploadByteCompletes : (given ul 0x43#8).role = .ul ∧ (given ul 0x43#8).running ∧ capLegal (given ul 0x43#8).curw (given ul 0x43#8).cap = true ∧
    (given ul 0x43#8).pending = [0x43#8] := by unfold State.running; decide
theorem witness_DownloadIdleResult : (dl .run).role = .dl ∧ (dl .run).running ∧ (dl .run).pending = [] ∧
    { dl .run with elapsed := 1000, retry := 15#8 }.elapsed ≤ 1000 ∧ 1000 < { dl .run with elapsed := 1001, retry := 15#8 }.elapsed := by
  unfold State.running; decide
theorem witness_UploadIdleResult : ul.role = .ul ∧ ul.running ∧ ul.pending = [] ∧ { ul with elapsed := 1000 }.elapsed ≤ 1000 ∧
    { ul with elapsed := 1001, ulTimeoutCounts := false }.ulTimeoutCounts = false ∧ 1000 < { ul with elapsed := 1001 }.elapsed ∧
    ul.ulTimeoutCounts = true := by unfold State.running; decide
theorem witness_DrainResult : (dl .abort).role ≠ .none ∧ (dl .abort).seq = .abort ∧ (given (dl .abort) 0x41#8).pending = [0x41#8] ∧
    (dl .abort).pending = [] := by decide
theorem witness_PollAndDrainOnlyWhenEnabled : ul.role ≠ .dl ∧ (dl .abort).seq = .abort ∧ (dl .ended).seq = .ended ∧ ul.pending = [] ∧
    (dl .run).role ≠ .ul ∧ (given ul 0x00#8).pending ≠ [] ∧ State.reset.role = .none ∧ (dl .await).seq ≠ .abort := by decide
theorem witness_StepKeepsInvariant : Inv (given lastByte 0x00#8) ∧ StepsTo (given lastByte 0x00#8) (fun t => t.seq = .crc1) :=
  ⟨inv_lastByte, _, rfl, by decide⟩
theorem witness_StepKeepsPayloadCoherence : Inv beforeCompare ∧ PayloadCoherent beforeCompare ∧ StepsTo beforeCompare (fun t => t.seq = .crc2) :=
  ⟨inv_beforeCompare, coherent_beforeCompare, _, rfl, by decide⟩
theorem witness_AckExactly : Inv beforeCompare ∧ PayloadCoherent beforeCompare ∧ beforeCompare.role = .dl ∧ beforeCompare.seq = .crc2 ∧
    joinOctets (highOctet beforeCompare.rxcrc) 0x00#8 = crcOf (beforeCompare.buf.slice (beforeCompare.cur - 128) 128) ∧
    joinOctets (highOctet beforeCompare.rxcrc) 0x01#8 ≠ crcOf (beforeCompare.buf.slice (beforeCompare.cur - 128) 128) := by
  have hs : beforeCompare.buf.slice (beforeCompare.cur - 128) 128 = List.replicate 128 0x00#8 := by decide +kernel
  rw [hs, crc_zero_payload]
  exact ⟨inv_beforeCompare, coherent_beforeCompare, by decide⟩
theorem witness_FaultExactly : Inv overrun ∧ step overrun = .fault (.bufferRange overrun.cur) ∧ overrun.role = .dl ∧
    overrun.seq = .run ∧ overrun.nextInput.cmd = none ∧ overrun.nextInput.supply = none ∧
    overrun.pending ++ overrun.nextInput.arrivals ≠ [] ∧ overrun.cap ≤ overrun.cur := ⟨inv_overrun, rfl, by decide⟩
theorem witness_RefusalsOfAStep : (Inv (supplied ul []) ∧ step (supplied ul []) = .refused .bufferInUse) ∧
    (Inv (told ul (.startDl 128)) ∧ step (told ul (.startDl 128)) = .refused .sessionActive) ∧
    (Inv (told State.reset (.startUl 129)) ∧ step (told State.reset (.startUl 129)) = .refused .illegalCapacity) ∧
    Inv State.reset ∧ step State.reset = .refused .notEnabled :=
  ⟨⟨by constructor <;> decide, rfl⟩, ⟨by constructor <;> decide, rfl⟩, ⟨by constructor <;> decide, rfl⟩, by constructor <;> decide, rfl⟩
theorem witness_BufferWrittenOnlyByPayload : Inv (given lastByte 0x55#8) ∧ (given lastByte 0x55#8).nextInput.supply = none ∧
    (given lastByte 0x55#8).role = .dl ∧ (given lastByte 0x55#8).seq = .run ∧ (given lastByte 0x55#8).nextInput.cmd = none ∧
    (given lastByte 0x55#8).pending ++ (given lastByte 0x55#8).nextInput.arrivals = [0x55#8] ∧
    StepsTo (given lastByte 0x55#8) (fun t => t.buf.read 255 = 0x55#8) :=
  ⟨by constructor <;> decide, rfl, rfl, rfl, rfl, rfl, _, rfl, by decide⟩
theorem witness_BufferUnchanged : Inv lastByte ∧ lastByte.nextInput.supply = none ∧
    lastByte.pending ++ lastByte.nextInput.arrivals = [] ∧ StepsTo lastByte (fun t => t.seq = .run) ∧ Inv ul ∧ ul.role ≠ .dl ∧
    StepsTo ul (fun t => t.role = .ul) :=
  ⟨by constructor <;> decide, rfl, rfl, ⟨_, rfl, by decide⟩, inv_ul, by decide, ⟨_, rfl, by decide⟩⟩
theorem witness_LastChangesOnlyByCommit : StepsTo (given { dl .crc2 with rxcrc := 0xE800#16, crc := 0xE80A#16 } 0x0A#8)
    (fun t => t.last ≠ ({ dl .crc2 with rxcrc := 0xE800#16, crc := 0xE80A#16 } : State).last) := ⟨_, rfl, by decide⟩
theorem witness_SessionKeeps : Inv (silent (dl .await) 1001) ∧ (silent (dl .await) 1001).role ≠ .none ∧
    StepsTo (silent (dl .await) 1001) (fun t => t.role ≠ .none ∧ t.retry = 1#8) :=
  ⟨by constructor <;> decide, by decide, _, rfl, by decide⟩
theorem witness_SessionCloses : StepsTo (told ul .reset) (fun t => ul.role ≠ .none ∧ t.role = .none) ∧
    StepsTo (given (dl .await) 0x04#8) (fun t => (dl .await).role ≠ .none ∧ t.role = .none) ∧
    StepsTo (dl .abort) (fun t => (dl .abort).role ≠ .none ∧ t.role = .none) :=
  ⟨⟨_, rfl, by decide⟩, ⟨_, rfl, by decide⟩, ⟨_, rfl, by decide⟩⟩
theorem witness_TraceGrows : StepsTo (given (dl .await) 0x17#8) (fun t => TraceEvent.tx 0x06#8 ∈ t.trace ∧ (dl .await).role ≠ .ul) :=
  ⟨_, rfl, by decide⟩
theorem witness_UploadSends : Inv ul ∧ (given { ul with blk := 2#8 } 0x06#8).role = .ul ∧ Inv (given { ul with blk := 2#8 } 0x06#8) ∧
    StepsTo (given { ul with blk := 2#8 } 0x06#8) (fun t => t.trace = [.trst, .tx 0x04#8]) :=
  ⟨inv_ul, rfl, by constructor <;> decide, _, rfl, by decide⟩
theorem witness_BytesTaken : StepsTo (given (dl .abort) 0x41#8) (fun t => t.pending = []) := ⟨_, rfl, by decide⟩
theorem witness_TimerFollowsItsResets : StepsTo (silent (dl .await) 1000) (fun t => t.elapsed = 1000) ∧
    StepsTo (silent (dl .await) 1001) (fun t => t.elapsed = 0) := ⟨⟨_, rfl, by decide⟩, ⟨_, rfl, by decide⟩⟩
theorem witness_ByteReadOnly : (given (dl .block) 0x05#8).running ∧ (given (dl .block) 0x05#8).nextInput.cmd = none ∧
    (given (dl .block) 0x05#8).pending ++ (given (dl .block) 0x05#8).nextInput.arrivals = [0x05#8] ∧
    StepsTo (given (dl .block) 0x05#8) (fun t => t.elapsed = 0) :=
  ⟨by unfold State.running; decide, rfl, rfl, _, rfl, by decide⟩
theorem witness_LaunchParameter : StepsTo (silent { ul with ulTimeoutCounts := false, curw := 9, returned := some 1#16 } 2000)
    (fun t => t.ulTimeoutCounts = false ∧ t.curw = 9 ∧ t.returned = some 1#16) := ⟨_, rfl, by decide⟩
theorem witness_AbortOnlyDrains : (given (dl .abort) 0x01#8).role ≠ .none ∧ (given (dl .abort) 0x01#8).seq = .abort ∧
    (given (dl .abort) 0x01#8).nextInput.cmd ≠ some .reset ∧ StepsTo (given (dl .abort) 0x01#8) (fun t => t.role = .dl) ∧
    StepsTo (dl .abort) (fun t => t.role = .none) := ⟨by decide, by decide, by decide, ⟨_, rfl, by decide⟩, ⟨_, rfl, by decide⟩⟩
theorem witness_SixteenTimeoutsAbort : ∃ (s : State) (waits : List Nat), s.role = .dl ∧ s.running ∧ s.retry = 0#8 ∧ s.pending = [] ∧
    waits.length = 16 ∧ (∀ w ∈ waits, 1000 < w) ∧
    s.inputs = waits.map (fun w => { supply := none, arrivals := [], wait := w, cmd := none }) :=
  ⟨{ dl .run with inputs := (List.replicate 16 1001).map (fun w => { supply := none, arrivals := [], wait := w, cmd := none }) },
    List.replicate 16 1001, rfl, by unfold State.running; decide, rfl, rfl, rfl, by decide, rfl⟩
/-- At the last slot of the buffer, for a fresh block and for a duplicate, with the payload's CRC (0000) and with another one. -/
theorem witness_FrameReceived : ∃ (s s' : State), s.buf.wf = true ∧ s.role = .dl ∧ s.seq = .await ∧ capLegal s.curw s.cap = true ∧
    s.pending = frameBytes 1#8 (List.replicate 128 0x00#8) 0#16 ++ [] ∧ (∀ e ∈ s.inputs, e.cmd = none ∧ e.supply = none) ∧
    s.cur = (if (1#8 : Byte) = s.last then 128 + 128 else 128) ∧ 128 + 128 ≤ s.cap ∧ (1#8 : Byte) ≠ s.last ∧
    s'.cur = (if (1#8 : Byte) = s'.last then 128 + 128 else 128) ∧ 128 + 128 ≤ s'.cap ∧ (1#8 : Byte) = s'.last :=
  ⟨{ dl .await with pending := zeroFrame, cur := 128 }, { dl .await with pending := zeroFrame, cur := 256, last := 1#8 },
    by decide +kernel⟩
theorem witness_FrameRejected : ∃ s : State, s.buf.wf = true ∧ s.role = .dl ∧ s.seq = .await ∧ capLegal s.curw s.cap = true ∧
    s.pending = frameBytes 1#8 (List.replicate 128 0x00#8) 1#16 ++ [] ∧ (1#16 : Word16) ≠ crcOf (List.replicate 128 0x00#8) ∧
    (∀ e ∈ s.inputs, e.cmd = none ∧ e.supply = none) ∧ s.cur = (if (1#8 : Byte) = s.last then 128 + 128 else 128) ∧
    128 + 128 ≤ s.cap := by
  rw [crc_zero_payload]
  exact ⟨{ dl .await with pending := frameBytes 1#8 (List.replicate 128 0x00#8) 1#16, cur := 128 }, by decide, rfl, rfl, by decide,
    (List.append_nil _).symm, by decide, by decide, rfl, by decide⟩
/-- A fresh block 1, a duplicate of it and a block 0, each with the buffer of any state the run may end in. -/
theorem witness_RoundTripThroughBuffer : ∃ (s s' s0 : State), s.buf.wf = true ∧ s.role = .dl ∧ s.seq = .await ∧
    capLegal s.curw s.cap = true ∧
    s.pending = frameBytes 1#8 (List.replicate 128 0x00#8) (crcOf (List.replicate 128 0x00#8)) ++ [] ∧
    (∀ e ∈ s.inputs, e.cmd = none ∧ e.supply = none) ∧ s.cur = (if (1#8 : Byte) = s.last then 0 + 128 else 0) ∧ 0 + 128 ≤ s.cap ∧
    (1#8 : Byte) ≠ s.last ∧ (s'.cur = (if (1#8 : Byte) = s'.last then 0 + 128 else 0) ∧ (1#8 : Byte) = s'.last) ∧
    s0.cur = (if (0#8 : Byte) = s0.last then 0 + 128 else 0) ∧
    ∀ t : State, ∃ u : State, u.buf = t.buf ∧ capLegal u.curw u.cap = true ∧ blockOffset u.curw u.cap 1#8 = 0 ∧
      blockOffset u.curw u.cap 0#8 = 0 := by
  rw [crc_zero_payload]
  exact ⟨{ dl .await with pending := zeroFrame, cap := 128 }, { dl .await with cur := 128, last := 1#8 }, { dl .await with last := 7#8 },
    by decide, rfl, rfl, by decide, by decide +kernel, by decide, by decide, by decide, by decide, by decide, by decide,
    fun t => ⟨{ ul with buf := t.buf }, rfl, (by decide : capLegal ul.curw ul.cap = true),
      (by decide : blockOffset ul.curw ul.cap 1#8 = 0), (by decide : blockOffset ul.curw ul.cap 0#8 = 0)⟩⟩

end Sys2Proof.Tests
end

section
/-! O11: the CRC engine of the model against the engine in plain numbers (40_crc.md R90), first one round, then any number of rounds,
then the byte placed into the high octet. -/

namespace Sys2Proof.Machine

/-- The bit shifted out is the top bit of the value before the shift, so both sides branch alike. -/
theorem crcRound_toNat (a : Word16) : (crcRound a).toNat = crcRoundNat a.toNat := by
  have hshift : (a <<< 1).toNat = a.toNat * 2 % 65536 := by
    rw [BitVec.toNat_shiftLeft, Nat.shiftLeft_eq]
  have hmsb : a.msb = true ↔ 32768 ≤ a.toNat := by
    simp [BitVec.msb_eq_decide]
  by_cases htop : 32768 ≤ a.toNat
  · rw [crcRound, crcRoundNat, if_pos (hmsb.mpr htop), if_pos htop, BitVec.toNat_xor, hshift]
    rfl
  · rw [crcRound, crcRoundNat, if_neg (mt hmsb.mp htop), if_neg htop, hshift]

theorem crcRounds_toNat (k : Nat) (a : Word16) : (crcRounds k a).toNat = crcRoundNat^[k] a.toNat := by
  induction k generalizing a with
  | zero => rfl
  | succ k ih => rw [crcRounds, ih, crcRound_toNat, Function.iterate_succ_apply]

/-- No bit is lost: a byte moved up by eight places still fits 16 bits (R96). -/
theorem byteInHighOctet_toNat (b : Byte) : (b.setWidth 16 <<< 8).toNat = b.toNat * 256 := by
  have hb : b.toNat < 256 := b.isLt
  rw [BitVec.toNat_shiftLeft, BitVec.toNat_setWidth, Nat.shiftLeft_eq]
  omega

theorem crcUpdate_toNat (acc : Word16) (b : Byte) :
    (crcUpdate acc b).toNat = crcRoundNat^[8] (acc.toNat ^^^ (b.toNat * 256)) := by
  rw [crcUpdate, crcRounds_toNat, BitVec.toNat_xor, byteInHighOctet_toNat]

/-- Settles O11: every round of the model is a round in plain numbers, and the two worked values of R90 are computed. -/
theorem crcUpdateEightRounds : Obligations.CrcUpdateEightRounds :=
  ⟨crcUpdate_toNat, by decide, by decide⟩

end Sys2Proof.Machine
end

section
/-! O17, O18: the receive transitions that put a constant or the byte itself into their registers (41_receive.md R101 to R105), each with
the selector that reads it. -/

namespace Sys2Proof.Machine

/-- Bytes sent one after the other stand in the trace in that order. -/
theorem putByte_putByte (s : State) (a b : Byte) : (s.putByte a).putByte b = s.setTrace (s.trace ++ [.tx a, .tx b]) := by
  have htrace : (s.trace ++ [.tx a]) ++ [.tx b] = s.trace ++ [.tx a, .tx b] := List.append_assoc ..
  exact congrArg s.setTrace htrace

theorem exec_rxAwaitEot (s : State) :
    exec .rxAwaitEot s = .next { s with trace := s.trace ++ [.tx 0x06#8, .tx 0x06#8], seq := .ended } := by
  change execRxAwaitEot s = _
  rw [execRxAwaitEot, putByte_putByte]
  rfl

/-- A byte that is none of the three codes makes the "any other" row well formed, so that row's selector reads it (30_encoding.md R79). -/
theorem decode_await_other {b : Byte} (hsoh : b ≠ 0x01#8) (heot : b ≠ 0x04#8) (hetb : b ≠ 0x17#8) :
    decode ⟨.dl, .await, .byte b⟩ = .ok (.rxAwaitOther b) := by
  have hwf : (Instr.rxAwaitOther b).wellFormed = true := by
    simp [Instr.wellFormed, isAwaitCode, Config.soh, Config.eot, Config.etb, hsoh, heot, hetb]
  exact Laws.RoundTrip.rxAwaitOther b hwf

/-- Settles O17: the effects are the named field updates, and each selector is the one its operation encodes to. -/
theorem awaitTransitions : Obligations.AwaitTransitions := by
  intro s
  refine ⟨?soh, exec_rxAwaitEot s, ?etb, ?other, Laws.RoundTrip.rxAwaitSoh rfl, Laws.RoundTrip.rxAwaitEot rfl,
    Laws.RoundTrip.rxAwaitEtb rfl, fun _ => decode_await_other⟩
  case soh => rfl
  case etb => rfl
  case other => exact fun _ => rfl

/-- Settles O18: the selector is the one `RX.BLOCK` encodes to, and the effect is its two field updates. -/
theorem blockNumberStored : Obligations.BlockNumberStored := by
  intro b s
  have hdecode : decode ⟨.dl, .block, .byte b⟩ = .ok (.rxBlock b) := Laws.RoundTrip.rxBlock b rfl
  exact ⟨hdecode, rfl⟩

end Sys2Proof.Machine
end

section
/-! O26: the two upload transitions that call `SendBlock` at once (42_transmit.md R124, R126), and the bytes that select them. -/

namespace Sys2Proof.Machine

/-- In the upload role the byte's value alone decides (R123), so a selector in any protocol state reads as one in `AWAIT`. -/
theorem decode_upload_eq_await (seq : SeqState) (b : Byte) : decode ⟨.ul, seq, .byte b⟩ = decode ⟨.ul, .await, .byte b⟩ := rfl

/-- A byte that is neither of the two codes makes the upload's "any other" row well formed, so that row's selector reads it (30_encoding.md R79). -/
theorem decode_upload_other {b : Byte} (hhandshake : b ≠ 0x43#8) (hack : b ≠ 0x06#8) (seq : SeqState) :
    decode ⟨.ul, seq, .byte b⟩ = .ok (.ulOther b) := by
  have hwf : (Instr.ulOther b).wellFormed = true := by
    simp [Instr.wellFormed, isUploadCode, Config.handshake, Config.ack, hhandshake, hack]
  rw [decode_upload_eq_await]
  exact Laws.RoundTrip.ulOther b hwf

/-- The handshake is `SendBlock(1)` after `BLK` is set to 1 (R124). -/
theorem exec_ulC (s : State) : exec .ulC s = exec (.txSendBlock 1#8) { s with blk := 1#8 } := rfl

/-- The resend is `SendBlock(BLK)`; the byte that asked for it plays no part (R126). -/
theorem exec_ulOther (b : Byte) (s : State) : exec (.ulOther b) s = exec (.txSendBlock s.blk) s := rfl

/-- Settles O26: both effects are calls of `SendBlock`, and the upload dispatch picks them whatever `STATE` is. -/
theorem handshakeAndResendCallSendBlock : Obligations.HandshakeAndResendCallSendBlock := by
  intro s
  refine ⟨exec_ulC s, fun b => exec_ulOther b s, ?handshake, ?other⟩
  case handshake =>
    rw [decode_upload_eq_await]
    exact Laws.RoundTrip.ulC rfl
  case other => exact fun _ hhandshake hack => decode_upload_other hhandshake hack s.seq

end Sys2Proof.Machine
end

section
/-! O23: the two protocol violations and the upload, which has none (60_exceptions.md R161). Both dispatches run the operation that the
byte decodes to, so the decoder's lemmas say what a byte does. -/

namespace Sys2Proof.Machine

/-- `HandleByte` runs the operation that the byte decodes to in the download (R100 against R78). -/
theorem handleByte_of_decode {b : Byte} {s : State} {i : Instr} (h : decode ⟨.dl, s.seq, .byte b⟩ = .ok i) :
    handleByte b s = exec i s := by
  have hi : decodeReceive s.seq b = i := Except.ok.inj h
  subst hi
  cases hq : s.seq <;> simp only [handleByte, decodeReceive, hq]
  case await => split_ifs <;> rfl
  all_goals rfl

/-- `UploadByte` runs the operation that the byte decodes to in the upload (R123 against R80). -/
theorem exec_decodeUpload (b : Byte) (s : State) : exec (decodeUpload b) s = uploadByte b s := by
  unfold decodeUpload uploadByte
  split_ifs <;> rfl

/-- `255 - BLK` as a byte and the sum 255 in plain numbers are the same test (R106). -/
theorem complementGood_iff {blk b : Byte} : complementGood blk b = true ↔ b.toNat + blk.toNat = 255 := by
  rw [complementGood, beq_iff_eq, complement]
  constructor <;> intro h <;> bv_omega

/-- What counts as a violation in the download: an unknown byte in `AWAIT`, or a failed complement check in `BLOCK2` (R161). -/
def Violates (b : Byte) (s : State) : Prop :=
  (s.seq = .await ∧ b ≠ 0x01#8 ∧ b ≠ 0x04#8 ∧ b ≠ 0x17#8) ∨ (s.seq = .block2 ∧ b.toNat + s.blk.toNat ≠ 255)

theorem handleByte_of_violates {b : Byte} {s : State} (h : Violates b s) : handleByte b s = .next s.enterAbort := by
  obtain ⟨hq, hsoh, heot, hetb⟩ | ⟨hq, hsum⟩ := h
  · exact handleByte_of_decode (by rw [hq]; exact decode_await_other hsoh heot hetb)
  · calc handleByte b s
      _ = execRxBlock2 b s := handleByte_of_decode (by rw [hq]; exact Laws.RoundTrip.rxBlock2 b rfl)
      _ = .next s.enterAbort := if_neg (mt complementGood_iff.mp hsum)

/-- A violation can only be met where a `POLL` is enabled. -/
theorem pollEnabled_of_violates {b : Byte} {s : State} (hrole : s.role = .dl) (h : Violates b s) : pollEnabled .dl s = true := by
  rw [pollEnabled_iff]
  obtain ⟨hq, -⟩ | ⟨hq, -⟩ := h <;> simp [hrole, hq]

/-- The upload ends in `END` or leaves `STATE` as it was; no byte makes it `ABORT`. -/
theorem uploadByte_keeps_ne_abort {b : Byte} {s t : State} (h : uploadByte b s = .next t) (hs : s.seq ≠ .abort) : t.seq ≠ .abort := by
  obtain ⟨-, -, rfl⟩ | ⟨n, c, bytes, rfl⟩ := uploadByte_next h
  · exact SeqState.noConfusion
  · exact hs

/-- Settles O23: the poll takes the byte and resets the timer before its dispatch enters `ABORT`; the upload's dispatch never does. -/
theorem protocolViolationFatalAndSilent : Obligations.ProtocolViolationFatalAndSilent := by
  refine ⟨fun s b rest hrole hpending hviolates => ?download, fun s b => ⟨decodeUpload b, rfl, fun t ht => ?upload⟩⟩
  case download =>
    have htaken : Violates b (s.setPending rest).timerReset := hviolates
    calc exec .pollDlByte s
      _ = handleByte b (s.setPending rest).timerReset := pollByte_cons (pollEnabled_of_violates hrole hviolates) hpending
      _ = .next (s.setPending rest).timerReset.enterAbort := handleByte_of_violates htaken
  case upload =>
    rw [exec_decodeUpload] at ht
    exact uploadByte_keeps_ne_abort ht

end Sys2Proof.Machine
end

section
/-! O2: the decoder inverts the encoder, assembled from the laws of the single operations. -/

namespace Sys2Proof.Laws.RoundTrip

/-- Settles O2: one law of the round trip for each row of the operation map (30_encoding.md R79). -/
theorem decodeEncodeRoundTrip : Obligations.DecodeEncodeRoundTrip := by
  intro i
  cases i with
  | crcUpdate acc b => exact crcUpdate acc b
  | rxAwaitSoh => exact rxAwaitSoh
  | rxAwaitEot => exact rxAwaitEot
  | rxAwaitEtb => exact rxAwaitEtb
  | rxAwaitOther b => exact rxAwaitOther b
  | rxBlock b => exact rxBlock b
  | rxBlock2 b => exact rxBlock2 b
  | rxRun b => exact rxRun b
  | rxCrc1 b => exact rxCrc1 b
  | rxCrc2 b => exact rxCrc2 b
  | rxTerminal b => exact rxTerminal b
  | txSendBlock n => exact txSendBlock n
  | ulC => exact ulC
  | ulAck => exact ulAck
  | ulOther b => exact ulOther b
  | startDl cap => exact startDl cap
  | startUl cap => exact startUl cap
  | pollDlByte => exact pollDlByte
  | pollUlByte => exact pollUlByte
  | pollDlIdle => exact pollDlIdle
  | pollUlIdle => exact pollUlIdle
  | retryCheck => exact retryCheck
  | sessionEnd => exact sessionEnd
  | drain => exact drain
  | reset => exact reset

end Sys2Proof.Laws.RoundTrip
end

section
/-! O1, O3, O4: what the decoder reads, row by row of the operation map, and the codes of the enumerated registers
(30_encoding.md R76 to R80). -/

namespace Sys2Proof

/-- Settles O1: each selector and each table word is decoded. -/
theorem decodeOfWrittenOutSelectors : Obligations.DecodeOfWrittenOutSelectors := by
  unfold Obligations.DecodeOfWrittenOutSelectors
  decide

/-- In `AWAIT` each exact row is taken by its own byte, and the "any other" row by a byte that is none of them (R78, R79). -/
theorem decodeReceive_await (b : Byte) :
    (decodeReceive .await b).wellFormed = true ∧ encode (decodeReceive .await b) = ⟨.dl, .await, .byte b⟩ := by
  simp only [decodeReceive]
  split_ifs with hsoh heot hetb
  · exact ⟨rfl, by rw [hsoh]; rfl⟩
  · exact ⟨rfl, by rw [heot]; rfl⟩
  · exact ⟨rfl, by rw [hetb]; rfl⟩
  · exact ⟨by simp [Instr.wellFormed, isAwaitCode, hsoh, heot, hetb], rfl⟩

/-- The receive dispatch loses nothing: `STATE` and the byte can be read off the operation, up to the shared terminal row (R78). -/
theorem decodeReceive_lossless (q : SeqState) (b : Byte) :
    (decodeReceive q b).wellFormed = true ∧
    encode (decodeReceive q b) = ⟨.dl, if q = .ended then .abort else q, .byte b⟩ := by
  cases q with
  | await => exact decodeReceive_await b
  | block | block2 | run | crc1 | crc2 | abort | ended => exact ⟨rfl, rfl⟩

/-- The upload dispatch loses nothing of the byte (R80). -/
theorem decodeUpload_lossless (b : Byte) :
    (decodeUpload b).wellFormed = true ∧ encode (decodeUpload b) = ⟨.ul, .await, .byte b⟩ := by
  unfold decodeUpload
  split_ifs with hhandshake hack
  · exact ⟨rfl, by rw [hhandshake]; rfl⟩
  · exact ⟨rfl, by rw [hack]; rfl⟩
  · exact ⟨by simp [Instr.wellFormed, isUploadCode, hhandshake, hack], rfl⟩

/-- Settles O3: both dispatches are total functions whose values are well formed and encode to the byte's selector. -/
theorem byteDecodeTotalAndLossless : Obligations.ByteDecodeTotalAndLossless := by
  intro q b
  exact ⟨⟨decodeReceive q b, rfl, decodeReceive_lossless q b⟩, ⟨decodeUpload b, rfl, decodeUpload_lossless b⟩⟩

theorem seqOfCode_seqCode (q : SeqState) : seqOfCode (seqCode q) = q := by cases q <;> rfl

/-- All eight codes are used (93_implementation_defined.md U10). -/
theorem seqCode_seqOfCode (c : BitVec 3) : seqCode (seqOfCode c) = c := by
  revert c
  decide

theorem roleOfCode_roleCode (r : Role) : roleOfCode (roleCode r) = some r := by cases r <;> rfl

/-- Settles O4: the codes are written out in their definitions, and reading back inverts them. -/
theorem registerCodesRoundTrip : Obligations.RegisterCodesRoundTrip :=
  ⟨rfl, rfl, rfl, rfl, rfl, rfl, rfl, rfl, rfl, rfl, rfl, seqOfCode_seqCode, seqCode_seqOfCode, roleOfCode_roleCode, rfl⟩

end Sys2Proof
end

section
/-! O5: the octets of a word and the bytes of a frame (30_encoding.md R72, R73). -/

namespace Sys2Proof.Machine

theorem highOctet_toNat (w : Word16) : (highOctet w).toNat = w.toNat / 256 := by
  have hw : w.toNat < 65536 := w.isLt
  simp only [highOctet, BitVec.extractLsb'_toNat, Nat.shiftRight_eq_div_pow]
  omega

theorem lowOctet_toNat (w : Word16) : (lowOctet w).toNat = w.toNat % 256 := by
  simp [lowOctet, BitVec.extractLsb'_toNat]

theorem joinOctets_toNat (hi lo : Byte) : (joinOctets hi lo).toNat = hi.toNat * 256 + lo.toNat := by
  have hlo : lo.toNat < 2 ^ 8 := lo.isLt
  have happend : (joinOctets hi lo).toNat = hi.toNat <<< 8 ||| lo.toNat := BitVec.toNat_append ..
  rw [happend, ← Nat.shiftLeft_add_eq_or_of_lt hlo, Nat.shiftLeft_eq]

/-- A word is its two octets. -/
theorem joinOctets_high_low (w : Word16) : joinOctets (highOctet w) (lowOctet w) = w := by
  apply BitVec.eq_of_toNat_eq
  rw [joinOctets_toNat, highOctet_toNat, lowOctet_toNat]
  omega

theorem highOctet_joinOctets (hi lo : Byte) : highOctet (joinOctets hi lo) = hi := by
  apply BitVec.eq_of_toNat_eq
  have hlo : lo.toNat < 256 := lo.isLt
  rw [highOctet_toNat, joinOctets_toNat]
  omega

theorem complement_toNat (n : Byte) : (complement n).toNat = 255 - n.toNat := by
  unfold complement
  bv_omega

theorem complement_eq_not (n : Byte) : complement n = ~~~n := by
  apply BitVec.eq_of_toNat_eq
  rw [complement_toNat, BitVec.toNat_not]

/-- `FRAME` is 133: three bytes of header, the payload, two bytes of CRC (90_conflicts.md C1). -/
theorem length_frameBytes {n : Byte} {p : List Byte} {c : Word16} (hp : p.length = 128) : (frameBytes n p c).length = 133 := by
  simp [frameBytes, hp]

theorem frameBytes_payload {n : Byte} {p : List Byte} {c : Word16} {i : Nat} (hi : i < p.length) :
    (frameBytes n p c)[3 + i]? = p[i]? := by
  simp [frameBytes, Nat.add_comm 3 i, List.getElem?_append_left hi]

theorem frameBytes_trailer (n : Byte) (p : List Byte) (c : Word16) :
    (frameBytes n p c)[p.length + 3]? = some (highOctet c) ∧ (frameBytes n p c)[p.length + 4]? = some (lowOctet c) := by
  simp [frameBytes]

/-- Settles O5: header and payload stand where the list puts them, and the trailer's octets join to the CRC. -/
theorem frameLayout : Obligations.FrameLayout := by
  intro n p hp
  obtain ⟨hhigh, hlow⟩ := frameBytes_trailer n p (crcOf p)
  rw [hp] at hhigh hlow
  refine ⟨length_frameBytes hp, rfl, rfl, ⟨complement n, rfl, complement_toNat n, complement_eq_not n⟩,
    fun i hi => frameBytes_payload (hp ▸ hi), highOctet (crcOf p), lowOctet (crcOf p), hhigh, hlow, ?_⟩
  rw [← joinOctets_toNat, joinOctets_high_low]

end Sys2Proof.Machine
end

section
/-! O8, O15, O16: the buffer is its contents (20_memory.md R50 to R54). -/

namespace Sys2Proof.Machine

/-- Past its end a store lists nothing. -/
theorem Memory.read_ofBytes_of_length_le {base k : Nat} {vs : List Byte} (h : base + vs.length ≤ k) :
    (Memory.ofBytes base vs).read k = Config.unlistedByte := by
  induction vs generalizing base with
  | nil => rfl
  | cons v vs ih =>
    have hlen : base + 1 + vs.length ≤ k := by simpa [Nat.add_assoc, Nat.add_comm 1] using h
    have hk : k ≠ base := by omega
    unfold Memory.ofBytes
    split
    · exact ih hlen
    · simpa [Memory.read, hk] using ih hlen

/-- Settles O8: a supplied store is canonical, reads as its bytes, and lists nothing past its end. -/
theorem suppliedStoreReadsAsItsBytes : Obligations.SuppliedStoreReadsAsItsBytes := by
  intro bytes
  refine ⟨Memory.ofBytes_wf 0 bytes, fun i hi => ?inside, fun i hi => ?past⟩
  case inside =>
    have h := Memory.read_ofBytes 0 i bytes hi
    rwa [Nat.zero_add] at h
  case past => exact Memory.read_ofBytes_of_length_le (by omega)

/-- Settles O15: the two checked accesses below `CAP` are the memory's own read and write, at or past `CAP` the fault. -/
theorem bufferAccessInAndOutOfRange : Obligations.BufferAccessInAndOutOfRange := by
  intro s a v hwf
  refine ⟨fun ha => ⟨memRead_of_lt ha, s.buf.write a v, memWrite_of_lt ha, Memory.write_wf a v hwf, ?same, fun k hk => ?other⟩,
    fun ha => ⟨memRead_of_ge ha, memWrite_of_ge ha⟩⟩
  case same => rw [Memory.read_write a a v hwf, if_pos rfl]
  case other => rw [Memory.read_write a k v hwf, if_neg hk]

theorem Memory.read_cons_self (a : Nat) (v : Byte) (m : Memory) : Memory.read ((a, v) :: m) a = v := if_pos rfl

theorem Memory.read_cons_of_ne {a k : Nat} (h : k ≠ a) (v : Byte) (m : Memory) : Memory.read ((a, v) :: m) k = m.read k :=
  if_neg h

/-- A canonical memory with a cell does not read like one whose offsets are all above that cell's: its first byte is listed. -/
theorem Memory.read_ne_of_above {a : Nat} {v : Byte} {m m' : Memory} (hv : v ≠ Config.unlistedByte) (h : m'.above a) :
    Memory.read ((a, v) :: m) a ≠ m'.read a := by
  rw [Memory.read_cons_self, Memory.read_of_above h]
  exact hv

theorem Memory.above_cons {lo a : Nat} {v : Byte} {m : Memory} (hlo : lo < a) (h : m.above a) :
    Memory.above lo ((a, v) :: m) := by
  intro p hp
  rcases List.mem_cons.1 hp with rfl | hp
  · exact hlo
  · exact Nat.lt_trans hlo (h p hp)

/-- In front of canonical tails the first cells agree, and the tails read alike: below the first offset nothing is listed. -/
theorem Memory.cons_read_ext {a a' : Nat} {v v' : Byte} {m m' : Memory} (hv : v ≠ Config.unlistedByte)
    (hv' : v' ≠ Config.unlistedByte) (hm : m.above a) (hm' : m'.above a')
    (h : ∀ k, Memory.read ((a, v) :: m) k = Memory.read ((a', v') :: m') k) :
    a = a' ∧ v = v' ∧ ∀ k, m.read k = m'.read k := by
  rcases Nat.lt_trichotomy a a' with hlt | rfl | hgt
  · exact absurd (h a) (Memory.read_ne_of_above hv (Memory.above_cons hlt hm'))
  · refine ⟨rfl, by simpa [Memory.read_cons_self] using h a, fun k => ?_⟩
    by_cases hk : k = a
    · rw [hk, Memory.read_of_above hm, Memory.read_of_above hm']
    · simpa [Memory.read_cons_of_ne hk] using h k
  · exact absurd (h a').symm (Memory.read_ne_of_above hv' (Memory.above_cons hgt hm))

/-- Settles O16, cell by cell. -/
theorem canonicalMemoryIsItsContents : Obligations.CanonicalMemoryIsItsContents := by
  intro m
  induction m with
  | nil =>
    intro m' _ hwf' h
    cases m' with
    | nil => rfl
    | cons p m' =>
      obtain ⟨a, v⟩ := p
      obtain ⟨hv, -, -⟩ := Memory.wf_cons.1 hwf'
      exact absurd (h a).symm (Memory.read_ne_of_above hv (by simp [Memory.above]))
  | cons p m ih =>
    obtain ⟨a, v⟩ := p
    intro m' hwf hwf' h
    obtain ⟨hv, hm, habove⟩ := Memory.wf_cons.1 hwf
    cases m' with
    | nil => exact absurd (h a) (Memory.read_ne_of_above hv (by simp [Memory.above]))
    | cons p' m' =>
      obtain ⟨a', v'⟩ := p'
      obtain ⟨hv', hm', habove'⟩ := Memory.wf_cons.1 hwf'
      obtain ⟨rfl, rfl, htail⟩ := Memory.cons_read_ext hv hv' habove habove' h
      rw [ih m' hm hm' htail]

end Sys2Proof.Machine
end

section
/-! O12, O13, O14: the CRC engine is linear over XOR, and a sequence followed by its own CRC leaves 0 (40_crc.md R90, R95). -/

namespace Sys2Proof.Machine

/-- Settles O12: the operation is the one update of the model's own field. -/
theorem crcUpdateCompletes : Obligations.CrcUpdateCompletes := fun _ _ _ => rfl

theorem xor_xor_xor_cancel (x y p : Word16) : x ^^^ p ^^^ (y ^^^ p) = x ^^^ y := by
  rw [BitVec.xor_comm y p, BitVec.xor_assoc, ← BitVec.xor_assoc p, BitVec.xor_self, BitVec.zero_xor]

/-- The bit shifted out is linear, so the polynomial enters once, twice or not at all. -/
theorem crcRound_xor (a a' : Word16) : crcRound (a ^^^ a') = crcRound a ^^^ crcRound a' := by
  have hshift : (a ^^^ a') <<< 1 = a <<< 1 ^^^ a' <<< 1 := BitVec.shiftLeft_xor_distrib ..
  simp only [crcRound, BitVec.msb_xor, hshift]
  rcases Bool.eq_false_or_eq_true a.msb with h | h <;> rcases Bool.eq_false_or_eq_true a'.msb with h' | h' <;>
    simp only [h, h', Bool.xor_self, Bool.xor_false, Bool.xor_true, Bool.not_false, Bool.false_eq_true, if_true, if_false]
  · exact (xor_xor_xor_cancel ..).symm
  · ac_rfl
  · ac_rfl

theorem crcRounds_xor (k : Nat) (a a' : Word16) : crcRounds k (a ^^^ a') = crcRounds k a ^^^ crcRounds k a' := by
  induction k generalizing a a' with
  | zero => rfl
  | succ k ih => simp only [crcRounds, crcRound_xor, ih]

/-- Settles O13: placing the byte is linear, and so are the rounds. -/
theorem crcUpdateLinear : Obligations.CrcUpdateLinear := by
  intro a a' b b'
  have hplaced : a ^^^ a' ^^^ (b ^^^ b').setWidth 16 <<< 8 =
      a ^^^ b.setWidth 16 <<< 8 ^^^ (a' ^^^ b'.setWidth 16 <<< 8) := by
    rw [BitVec.setWidth_xor, BitVec.shiftLeft_xor_distrib]
    ac_rfl
  simp only [crcUpdate, hplaced, crcRounds_xor]

theorem crcFold_append (acc : Word16) (s t : List Byte) : crcFold acc (s ++ t) = crcFold (crcFold acc s) t :=
  List.foldl_append

/-- While no bit is shifted out, a round doubles. -/
theorem crcRounds_toNat_of_small {k : Nat} {a : Word16} (h : a.toNat * 2 ^ k < 65536) :
    (crcRounds k a).toNat = a.toNat * 2 ^ k := by
  induction k generalizing a with
  | zero => simp [crcRounds]
  | succ k ih =>
    have hpow : a.toNat * 2 ^ (k + 1) = a.toNat * 2 * 2 ^ k := by rw [Nat.pow_succ]; ac_rfl
    have hle : a.toNat * 2 ≤ a.toNat * 2 * 2 ^ k := Nat.le_mul_of_pos_right _ (Nat.two_pow_pos k)
    have hround : (crcRound a).toNat = a.toNat * 2 := by
      rw [crcRound_toNat, crcRoundNat, if_neg (by omega), Nat.mod_eq_of_lt (by omega)]
    rw [crcRounds, ih (by rw [hround]; omega), hround, hpow]

/-- A word less its high octet is its low octet: bit by bit, the bits from 8 on cancel. -/
theorem xor_highOctet (c : Word16) : c ^^^ (highOctet c).setWidth 16 <<< 8 = (lowOctet c).setWidth 16 := by
  ext i hi
  grind [highOctet, lowOctet]

/-- Over the high octet of the accumulator itself, an update leaves the low octet moved up by eight places. -/
theorem crcUpdate_highOctet (c : Word16) : crcUpdate c (highOctet c) = (lowOctet c).setWidth 16 <<< 8 := by
  apply BitVec.eq_of_toNat_eq
  have hlow : ((lowOctet c).setWidth 16).toNat = (lowOctet c).toNat := by simp; omega
  rw [crcUpdate, xor_highOctet, crcRounds_toNat_of_small (by omega), byteInHighOctet_toNat, hlow]
  rfl

theorem crcUpdate_self (b : Byte) : crcUpdate (b.setWidth 16 <<< 8) b = 0#16 := by
  rw [crcUpdate, BitVec.xor_self]
  decide

/-- Settles O14: the fold goes on over the second part; and the two octets of a CRC cancel it one after the other. -/
theorem crcIncrementalAndResidue : Obligations.CrcIncrementalAndResidue := by
  refine ⟨fun s t => crcFold_append _ s t, fun s => ?residue⟩
  calc crcOf (s ++ [highOctet (crcOf s), lowOctet (crcOf s)])
    _ = crcUpdate (crcUpdate (crcOf s) (highOctet (crcOf s))) (lowOctet (crcOf s)) := crcFold_append ..
    _ = 0#16 := by rw [crcUpdate_highOctet, crcUpdate_self]

end Sys2Proof.Machine
end

section
/-! O19, O20, O21: the receive transitions that check, count or compare, each branch in one record (41_receive.md R106 to R109). -/

namespace Sys2Proof.Machine

theorem handleByte_block2 {s : State} (hq : s.seq = .block2) (b : Byte) : handleByte b s = execRxBlock2 b s := by
  simp only [handleByte, hq]

theorem handleByte_run {s : State} (hq : s.seq = .run) (b : Byte) : handleByte b s = execRxRun b s := by simp only [handleByte, hq]

theorem handleByte_crc1 {s : State} (hq : s.seq = .crc1) (b : Byte) : handleByte b s = execRxCrc1 b s := by
  simp only [handleByte, hq]

theorem handleByte_crc2 {s : State} (hq : s.seq = .crc2) (b : Byte) : handleByte b s = execRxCrc2 b s := by
  simp only [handleByte, hq]

theorem execRxBlock2_of_mismatch {s : State} {b : Byte} (h : b.toNat + s.blk.toNat ≠ 255) :
    execRxBlock2 b s = .next { s with seq := .abort } := if_neg (mt complementGood_iff.1 h)

theorem execRxBlock2_of_duplicate {s : State} {b : Byte} (h : b.toNat + s.blk.toNat = 255) (hd : s.blk = s.last) :
    execRxBlock2 b s = .next { s with cur := cursorRewind s.curw s.cur, seq := .run } := by
  have hdup : isDuplicate s = true := beq_iff_eq.2 hd
  rw [execRxBlock2, if_pos (complementGood_iff.2 h), if_pos hdup]
  rfl

theorem execRxBlock2_of_fresh {s : State} {b : Byte} (h : b.toNat + s.blk.toNat = 255) (hd : s.blk ≠ s.last) :
    execRxBlock2 b s = .next { s with seq := .run } := by
  have hdup : ¬ isDuplicate s = true := mt beq_iff_eq.1 hd
  rw [execRxBlock2, if_pos (complementGood_iff.2 h), if_neg hdup]
  rfl

/-- Settles O19: the complement check decides first, the duplicate test second, and the rewound cursor is a number of `CURW` bits. -/
theorem complementCheckAndDuplicateRewind : Obligations.ComplementCheckAndDuplicateRewind := fun _ _ =>
  ⟨execRxBlock2_of_mismatch,
    fun h hd => ⟨_, cursorRewind_lt _ _, cursorRewind_add _ _, execRxBlock2_of_duplicate h hd⟩,
    execRxBlock2_of_fresh⟩

/-- The count is complete exactly behind the 128th byte (92_eei_decisions.md D28). -/
theorem payloadComplete_succ_iff {c : Byte} : payloadComplete (c + 1#8) = true ↔ c = 127#8 := by
  rw [payloadComplete_iff]
  constructor <;> intro h <;> bv_omega

/-- Settles O20: in the buffer the byte is written at the cursor, outside it the write is the fault. -/
theorem payloadByteStoredFoldedCounted : Obligations.PayloadByteStoredFoldedCounted := by
  intro b s hwf
  refine ⟨fun hcur => ⟨s.buf.write s.cur b, Memory.write_wf _ _ hwf, ?same, fun k hk => ?other, ?effect⟩, execRxRun_of_ge⟩
  case same => rw [Memory.read_write _ _ _ hwf, if_pos rfl]
  case other => rw [Memory.read_write _ _ _ hwf, if_neg hk]
  case effect =>
    change execRxRun b s = _
    simp only [execRxRun_of_lt hcur, cursorNext_eq, payloadComplete_succ_iff]

theorem withHighOctet_toNat (r : Word16) (b : Byte) : (withHighOctet r b).toNat = b.toNat * 256 + r.toNat % 256 := by
  rw [withHighOctet, joinOctets_toNat, lowOctet_toNat]

theorem withLowOctet_toNat (r : Word16) (b : Byte) : (withLowOctet r b).toNat = r.toNat / 256 * 256 + b.toNat := by
  rw [withLowOctet, joinOctets_toNat, highOctet_toNat]

theorem execRxCrc2_of_match {s : State} {b : Byte} (h : withLowOctet s.rxcrc b = s.crc) :
    execRxCrc2 b s = .next { s with
      rxcrc := withLowOctet s.rxcrc b, trace := s.trace ++ [.tx 0x06#8], last := s.blk, seq := .await } := by
  have hmatch : crcMatches (s.setRxcrc (withLowOctet s.rxcrc b)) = true := beq_iff_eq.2 h
  rw [execRxCrc2, if_pos hmatch]
  rfl

theorem execRxCrc2_of_mismatch {s : State} {b : Byte} (h : withLowOctet s.rxcrc b ≠ s.crc) :
    execRxCrc2 b s = .next { s with
      rxcrc := withLowOctet s.rxcrc b, trace := s.trace ++ [.tx 0x15#8], cur := cursorRewind s.curw s.cur, seq := .await } := by
  have hmatch : ¬ crcMatches (s.setRxcrc (withLowOctet s.rxcrc b)) = true := mt beq_iff_eq.1 h
  rw [execRxCrc2, if_neg hmatch]
  rfl

/-- Settles O21: the octets are replaced in numbers, and the compare decides between commit and rewind. -/
theorem crcTrailerResults : Obligations.CrcTrailerResults := by
  intro b s
  refine ⟨⟨_, withHighOctet_toNat s.rxcrc b, rfl⟩, ⟨_, withLowOctet_toNat s.rxcrc b, execRxCrc2_of_match, fun h => ?reject⟩⟩
  exact ⟨_, cursorRewind_lt _ _, cursorRewind_add _ _, execRxCrc2_of_mismatch h⟩

end Sys2Proof.Machine
end

section
/-! O24, O25, O27, O28: the transmit offset, the frame `SendBlock` emits and the upload's operations (42_transmit.md R120 to R126). -/

namespace Sys2Proof.Machine

/-- A legal capacity exists only where the cursor has at least 8 bits, so 128 divides `2^CURW`. -/
theorem dvd_two_pow_of_legal {w cap : Nat} (h : capLegal w cap = true) : 128 ∣ 2 ^ w := by
  obtain ⟨-, hcap, hfits⟩ := capLegal_iff.1 h
  have hw : 7 ≤ w := by
    by_contra hlt
    have hpow : 2 ^ w ≤ 2 ^ 6 := Nat.pow_le_pow_right (by omega) (by omega)
    omega
  exact Nat.pow_dvd_pow 2 hw

/-- From block 1 on the inner wrap makes no difference to the product (42_transmit.md R122). -/
theorem rawOffset_of_pos {w : Nat} {n : Byte} (hn : 1 ≤ n.toNat) : rawOffset w n = 128 * (n.toNat - 1) % 2 ^ w := by
  have hint : ((n.toNat : Int) - 1) = ((n.toNat - 1 : Nat) : Int) := by omega
  have houter : rawOffset w n = wrap w ((128 * ((n.toNat - 1) % 2 ^ w) : Nat) : Int) := by
    rw [rawOffset, hint, wrap_natCast]
    rfl
  rw [houter, wrap_natCast, Nat.mul_mod_mod]

/-- Block 0 stands 128 below the end of the offsets, at or past every legal capacity. -/
theorem le_rawOffset_zero {w cap : Nat} {n : Byte} (h : capLegal w cap = true) (hn : n.toNat = 0) : cap ≤ rawOffset w n := by
  obtain ⟨-, hcap, hfits⟩ := capLegal_iff.1 h
  have hinner : wrap w ((n.toNat : Int) - 1) = 2 ^ w - 1 := by
    have hmod : (-1 : Int) % ((2 ^ w : Nat) : Int) = ((2 ^ w : Nat) : Int) - 1 := by
      rw [← Int.add_emod_right, Int.emod_eq_of_lt] <;> omega
    rw [hn, wrap, show ((0 : Nat) : Int) - 1 = -1 from rfl, hmod]
    omega
  have houter : rawOffset w n = wrap w ((128 * (2 ^ w - 1) : Nat) : Int) := by
    rw [rawOffset, hinner]
    rfl
  have hsplit : 128 * (2 ^ w - 1) = (2 ^ w - 128) + 2 ^ w * 127 := by omega
  rw [houter, wrap_natCast, hsplit, Nat.add_mul_mod_self_left, Nat.mod_eq_of_lt (by omega)]
  omega

theorem txOffset_eq_blockOffset {w cap : Nat} (h : capLegal w cap = true) (n : Byte) : txOffset w cap n = blockOffset w cap n := by
  unfold txOffset blockOffset
  by_cases hn : n.toNat = 0
  · rw [if_pos (le_rawOffset_zero h hn), if_pos (.inl hn)]
  · simp only [rawOffset_of_pos (by omega : 1 ≤ n.toNat), hn, false_or]

/-- Slots start at multiples of 128, which wrapping keeps. -/
theorem blockOffset_mod {w cap : Nat} (h : capLegal w cap = true) (n : Byte) : blockOffset w cap n % 128 = 0 := by
  unfold blockOffset
  split
  · rfl
  · rw [Nat.mod_mod_of_dvd _ (dvd_two_pow_of_legal h), Nat.mul_mod_right]

/-- A slot that starts inside the buffer ends inside it, since both ends are multiples of 128. -/
theorem blockOffset_add_le {w cap : Nat} (h : capLegal w cap = true) (n : Byte) : blockOffset w cap n + 128 ≤ cap := by
  obtain ⟨hmul, hcap, -⟩ := capLegal_iff.1 h
  have hmod := blockOffset_mod h n
  have hlt : blockOffset w cap n < cap := by
    unfold blockOffset
    split
    · omega
    · omega
  omega

theorem blockOffset_of_le {w cap : Nat} {n : Byte} (h : capLegal w cap = true) (hn : 1 ≤ n.toNat) (hle : n.toNat ≤ cap / 128) :
    blockOffset w cap n = 128 * (n.toNat - 1) := by
  obtain ⟨-, -, hfits⟩ := capLegal_iff.1 h
  have hmod : 128 * (n.toNat - 1) % 2 ^ w = 128 * (n.toNat - 1) := Nat.mod_eq_of_lt (by omega)
  rw [blockOffset, hmod, if_neg (by omega)]

/-- From 15 bits on no block number's product wraps. -/
theorem rawOffset_of_wide {w : Nat} {n : Byte} (hw : 15 ≤ w) (hn : 1 ≤ n.toNat) : rawOffset w n = 128 * (n.toNat - 1) := by
  have hpow : 2 ^ 15 ≤ 2 ^ w := Nat.pow_le_pow_right (by omega) hw
  have hlt : n.toNat < 256 := n.isLt
  rw [rawOffset_of_pos hn, Nat.mod_eq_of_lt (by omega)]

/-- Settles O24: the model's two wraps and its test against `CAP` are the offset in plain numbers, a slot inside the buffer. -/
theorem transmitOffsetForEveryWidth : Obligations.TransmitOffsetForEveryWidth := fun _ _ n h =>
  ⟨txOffset_eq_blockOffset h n, blockOffset_mod h n, blockOffset_add_le h n, blockOffset_of_le h, rawOffset_of_wide⟩

/-- `SendBlock` is the pure frame of R121: its loop runs over the block's slot, which lies inside the buffer. -/
theorem sendBlock_eq {s : State} (h : capLegal s.curw s.cap = true) (n : Byte) : sendBlock n s = .ok (s.sentBlock n) := by
  have hin : blockOffset s.curw s.cap n + Config.payload ≤ s.cap := blockOffset_add_le h n
  unfold sendBlock
  rw [txOffset_eq_blockOffset h, sendPayload_of_le (s := (sendHeader n s).setCrc Config.crcInit) hin]
  simp [Except.map, State.sentBlock, State.blockPayload, sendHeader, sendTrailer, frameBytes, crcOf, State.putByte, State.setTrace,
    State.setCrc, Config.payload]

theorem exec_txSendBlock {s : State} (h : capLegal s.curw s.cap = true) (n : Byte) :
    exec (.txSendBlock n) s = .next (s.sentBlock n) := congrArg toResult (sendBlock_eq h n)

/-- Settles O25: the slot lies inside the buffer, so the loop cannot fault, and it carries 128 bytes. -/
theorem sendBlockEmitsFrame : Obligations.SendBlockEmitsFrame := fun n s h =>
  ⟨exec_txSendBlock h n, length_frameBytes (s.length_blockPayload n)⟩

/-- Past the last block the acknowledgement ends the upload (42_transmit.md R125). -/
theorem exec_ulAck_of_lt {s : State} (h : s.cap / 128 < (s.blk.toNat + 1) % 256) :
    exec .ulAck s = .next { s with blk := s.blk + 1#8, trace := s.trace ++ [.tx 0x04#8], seq := .ended } := by
  have hexhausted : blocksExhausted (s.setBlk (s.blk + 1#8)) = true := blocksExhausted_iff.2 h
  change execUlAck s = _
  rw [execUlAck, if_pos hexhausted]
  rfl

/-- Else it asks for the next block. -/
theorem exec_ulAck_of_le {s : State} (h : (s.blk.toNat + 1) % 256 ≤ s.cap / 128) :
    exec .ulAck s = exec (.txSendBlock (s.blk + 1#8)) { s with blk := s.blk + 1#8 } := by
  have hexhausted : ¬ blocksExhausted (s.setBlk (s.blk + 1#8)) = true := mt blocksExhausted_iff.1 (Nat.not_lt.2 h)
  change execUlAck s = _
  rw [execUlAck, if_neg hexhausted]
  rfl

/-- Settles O27: each operation is `SendBlock` at a block number, or the end of the upload. -/
theorem uploadOperationResults : Obligations.UploadOperationResults := by
  intro s h
  refine ⟨?handshake, fun b => ?resend, exec_ulAck_of_lt, fun hle => ?next⟩
  case handshake => exact exec_txSendBlock (s := { s with blk := 1#8 }) h 1#8
  case resend => exact exec_txSendBlock h s.blk
  case next =>
    rw [exec_ulAck_of_le hle]
    exact exec_txSendBlock (s := { s with blk := s.blk + 1#8 }) h _

/-- Settles O28: `BLK` wraps at 255 and so never exceeds a count of 255 blocks or more (70_reset_and_hazards.md R191). -/
theorem uploadEndsExactlyPastItsLastBlock : Obligations.UploadEndsExactlyPastItsLastBlock := by
  intro s h hq
  have h255 : s.blk ≠ 255#8 ↔ s.blk.toNat ≠ 255 := by rw [ne_eq, ← BitVec.toNat_inj]; rfl
  have hlt : s.blk.toNat < 256 := s.blk.isLt
  obtain ⟨-, -, hend, hnext⟩ := uploadOperationResults s h
  by_cases hx : s.cap / 128 < (s.blk.toNat + 1) % 256
  · refine ⟨_, hend hx, iff_of_true rfl ?_, fun hcap => ?_⟩
    · rw [h255]; omega
    · omega
  · refine ⟨_, hnext (Nat.not_lt.1 hx), iff_of_false (by simp [hq]) ?_, fun _ => by simp [hq]⟩
    rw [h255]
    omega

end Sys2Proof.Machine
end

section
/-! O22, O29, O30, O33 to O37: session start, the idle polls, the ceiling check, the drain and the reset
(43_session_timeout.md R140 to R150, 70_reset_and_hazards.md R180). -/

namespace Sys2Proof.Machine

theorem checkRetry_of_lt {s : State} (h : 15 < s.retry.toNat) : checkRetry s = s.enterAbort := by
  rw [checkRetry_eq, if_pos h]
  rfl

theorem checkRetry_of_le {s : State} (h : s.retry.toNat ≤ 15) : checkRetry s = s := by
  rw [checkRetry_eq, if_neg (Nat.not_lt.2 h)]

/-- Settles O22: the ceiling check is the only action with two branches. -/
theorem internalActions : Obligations.InternalActions := fun s =>
  ⟨fun _ => rfl, fun h => congrArg Host.Outcome.next (checkRetry_of_lt (s := s) h),
    fun h => congrArg Host.Outcome.next (checkRetry_of_le (s := s) h), rfl⟩

theorem exec_startDl (cap : Nat) (s : State) : exec (.startDl cap) s =
    startCheck cap s (fun s0 => .next ((s0.startSession .dl cap).putByte Config.handshake).timerReset) := rfl

theorem exec_startUl (cap : Nat) (s : State) : exec (.startUl cap) s =
    startCheck cap s (fun s0 => .next (s0.startSession .ul cap).timerReset) := rfl

/-- Settles O29: with both checks passed a start command is its chain of updates. -/
theorem startResults : Obligations.StartResults := by
  intro s cap hrole hmul hlow hhigh
  have hlegal : capLegal s.curw cap = true := capLegal_iff.2 ⟨hmul, hlow, hhigh⟩
  constructor
  · rw [exec_startDl, startCheck_of_legal hrole hlegal]
    simp [State.startSession, State.putByte, State.timerReset, State.setTrace, State.setElapsed, Config.crcInit, Config.handshake]
  · rw [exec_startUl, startCheck_of_legal hrole hlegal]
    rfl

/-- Settles O30: both start commands make the same check. -/
theorem startRefusals : Obligations.StartRefusals := by
  intro s cap
  rw [exec_startDl, exec_startUl]
  refine ⟨fun hrole => ⟨startCheck_of_active hrole, startCheck_of_active hrole⟩, fun hrole hcap => ?illegal⟩
  have hillegal : capLegal s.curw cap = false := by
    rw [Bool.eq_false_iff, ne_eq, capLegal_iff]
    omega
  exact ⟨startCheck_of_illegal hrole hillegal, startCheck_of_illegal hrole hillegal⟩

/-- In a running session the `POLL` of its role is enabled. -/
theorem pollEnabled_of_running {role : Role} {s : State} (hrole : s.role = role) (h : s.running) : pollEnabled role s = true := by
  obtain ⟨-, habort, hended⟩ := h
  exact pollEnabled_iff.2 ⟨hrole, habort, hended⟩

theorem pollIdle_of_quiet {role : Role} {f : State → State} {s : State} (he : pollEnabled role s = true) (hp : s.pending = [])
    (ht : s.elapsed ≤ 1000) : pollIdle role f s = .next (checkRetry s) := by
  rw [pollIdle_enabled he hp, if_neg (mt timedOut_iff.1 (Nat.not_lt.2 ht))]

theorem pollIdle_of_timeout {role : Role} {f : State → State} {s : State} (he : pollEnabled role s = true) (hp : s.pending = [])
    (ht : 1000 < s.elapsed) : pollIdle role f s = .next (checkRetry (f s)) := by
  rw [pollIdle_enabled he hp, if_pos (timedOut_iff.2 ht)]

/-- A counted timeout and the ceiling check, in one record (43_session_timeout.md R145, R148). -/
theorem checkRetry_countTimeout (s : State) :
    checkRetry (countTimeout s) = { s with
      retry := s.retry + 1#8
      elapsed := 0
      trace := s.trace ++ [.trst]
      seq := if 15 < (s.retry.toNat + 1) % 256 then .abort else s.seq } := by
  have hnext : (s.retry + 1#8).toNat = (s.retry.toNat + 1) % 256 := BitVec.toNat_add ..
  rw [countTimeout_eq, checkRetry_eq]
  simp only [State.timerReset_retry, State.setRetry_retry, hnext]
  rfl

theorem exec_pollDlIdle (s : State) :
    exec .pollDlIdle s = pollIdle .dl (fun t => countTimeout (t.putByte Config.handshake)) s := rfl

theorem exec_pollUlIdle (s : State) :
    exec .pollUlIdle s = pollIdle .ul (fun t => if t.ulTimeoutCounts then countTimeout t else t) s := rfl

/-- Settles O33: the handshake byte is sent before the timeout is counted. -/
theorem downloadIdleResult : Obligations.DownloadIdleResult := by
  intro s hrole hrun hp
  have he := pollEnabled_of_running hrole hrun
  rw [exec_pollDlIdle]
  refine ⟨fun ht => ?quiet, fun ht => ?timeout⟩
  case quiet =>
    rw [← checkRetry_eq]
    exact pollIdle_of_quiet he hp ht
  case timeout =>
    rw [pollIdle_of_timeout he hp ht, checkRetry_countTimeout]
    simp only [State.putByte_trace, List.append_assoc]
    rfl

/-- Settles O34: where upload timeouts do not count, one is no more than a quiet poll. -/
theorem uploadIdleResult : Obligations.UploadIdleResult := by
  intro s hrole hrun hp
  have he := pollEnabled_of_running hrole hrun
  rw [exec_pollUlIdle]
  refine ⟨fun h => ?uncounted, fun ht hcounts => ?counted⟩
  case uncounted =>
    rw [← checkRetry_eq]
    by_cases ht : s.elapsed ≤ 1000
    · exact pollIdle_of_quiet he hp ht
    · have hcounts : ¬ s.ulTimeoutCounts = true := by simp [h.resolve_left ht]
      rw [pollIdle_of_timeout he hp (Nat.not_le.1 ht), if_neg hcounts]
  case counted =>
    rw [pollIdle_of_timeout he hp ht, if_pos hcounts, checkRetry_countTimeout]

/-- Settles O35: the drain is enabled, and `getByte()` decides. -/
theorem drainResult : Obligations.DrainResult := by
  intro s hrole hq
  have henabled : execDrain s = match s.getByte with
      | some (_, s1) => .next s1
      | none => .next s.closeSession := if_pos ⟨hrole, hq⟩
  refine ⟨fun b rest hp => ?byte, fun hp => ?empty⟩
  case byte =>
    rw [getByte_cons hp] at henabled
    exact henabled
  case empty =>
    rw [getByte_nil hp] at henabled
    exact henabled

/-- Settles O36: the reset values are written out in `resetRegisters`. -/
theorem resetResult : Obligations.ResetResult := ⟨fun _ => rfl, rfl⟩

theorem pollEnabled_eq_false {role : Role} {s : State} (h : s.role ≠ role ∨ s.seq = .abort ∨ s.seq = .ended) :
    pollEnabled role s = false := by
  rw [Bool.eq_false_iff, ne_eq, pollEnabled_iff]
  tauto

theorem pollByte_refused {role : Role} {d : Byte → State → Result} {s : State}
    (h : s.role ≠ role ∨ s.seq = .abort ∨ s.seq = .ended ∨ s.pending = []) : pollByte role d s = .refused .notEnabled := by
  by_cases hp : s.pending = []
  · exact pollByte_nil hp
  · exact pollByte_disabled (pollEnabled_eq_false (by tauto))

theorem pollIdle_refused {role : Role} {f : State → State} {s : State}
    (h : s.role ≠ role ∨ s.seq = .abort ∨ s.seq = .ended ∨ s.pending ≠ []) : pollIdle role f s = .refused .notEnabled := by
  refine if_neg ?_
  rw [Bool.and_eq_true, Bool.not_eq_true', Bool.eq_false_iff, ne_eq, byteAvailable_eq_true]
  by_cases hp : s.pending = []
  · simp [pollEnabled_eq_false (role := role) (s := s) (by tauto)]
  · simp [hp]

theorem execDrain_refused {s : State} (h : s.role = .none ∨ s.seq ≠ .abort) : execDrain s = .refused .notEnabled :=
  if_neg (by tauto)

/-- Settles O37: what the polls test before they act, of either role. -/
theorem pollAndDrainOnlyWhenEnabled : Obligations.PollAndDrainOnlyWhenEnabled := by
  intro s
  rw [exec_pollDlIdle, exec_pollUlIdle]
  exact ⟨pollByte_refused, pollByte_refused, pollIdle_refused, pollIdle_refused, execDrain_refused⟩

end Sys2Proof.Machine
end

section
/-! O9, O31, O32: the polls that read a byte (43_session_timeout.md R143, R144). First what a byte's dispatch leaves unchanged and what it
sends, for the download and for the upload: later proofs about steps cite these and do not go through the transitions again. -/

namespace Sys2Proof.Machine

/-- What neither dispatch touches, from the state `s` it is handed to the state `u` it leaves. -/
structure DispatchFrame (s u : State) : Prop where
  role : u.role = s.role
  cap : u.cap = s.cap
  retry : u.retry = s.retry
  curw : u.curw = s.curw
  ulTimeoutCounts : u.ulTimeoutCounts = s.ulTimeoutCounts
  returned : u.returned = s.returned
  inputs : u.inputs = s.inputs
  pending : u.pending = s.pending
  elapsed : u.elapsed = s.elapsed

theorem HandleCase.frame {b : Byte} {s u : State} (h : HandleCase b s u) : DispatchFrame s u := by
  cases h <;> constructor <;> rfl

/-- A receive transition sends acknowledgements and rejections only (41_receive.md R102, R103, R109). -/
theorem HandleCase.sent {b : Byte} {s u : State} (h : HandleCase b s u) :
    ∃ bytes : List Byte, u.trace = s.trace ++ bytes.map .tx ∧ ∀ x ∈ bytes, x = 0x06#8 ∨ x = 0x15#8 := by
  cases h with
  | eot => exact ⟨[0x06#8, 0x06#8], rfl, by simp⟩
  | etb => exact ⟨[0x06#8], rfl, by simp⟩
  | commit => exact ⟨[0x06#8], rfl, by simp⟩
  | reject => exact ⟨[0x15#8], rfl, by simp⟩
  | soh | other | block | mismatch | duplicate | fresh | payload | crcHigh | terminal => exact ⟨[], by simp, by simp⟩

theorem uploadByte_frame {b : Byte} {s u : State} (h : uploadByte b s = .next u) : DispatchFrame s u := by
  obtain ⟨-, -, rfl⟩ | ⟨n, c, bytes, rfl⟩ := uploadByte_next h <;> constructor <;> rfl

theorem uploadByte_sent {b : Byte} {s u : State} (h : uploadByte b s = .next u) :
    ∃ bytes : List Byte, u.trace = s.trace ++ bytes.map .tx := by
  obtain ⟨-, -, rfl⟩ | ⟨n, c, bytes, rfl⟩ := uploadByte_next h
  · exact ⟨[0x04#8], rfl⟩
  · exact ⟨bytes, rfl⟩

/-- An upload byte leaves every receive register and the buffer alone (42_transmit.md R127). -/
structure ReceiverFrame (s u : State) : Prop where
  buf : u.buf = s.buf
  cur : u.cur = s.cur
  last : u.last = s.last
  cnt : u.cnt = s.cnt
  rxcrc : u.rxcrc = s.rxcrc

theorem uploadByte_receiverFrame {b : Byte} {s u : State} (h : uploadByte b s = .next u) : ReceiverFrame s u := by
  obtain ⟨-, -, rfl⟩ | ⟨n, c, bytes, rfl⟩ := uploadByte_next h <;> constructor <;> rfl

/-- An upload byte ends the upload or leaves `STATE` alone (42_transmit.md R125). -/
theorem uploadByte_seq {b : Byte} {s u : State} (h : uploadByte b s = .next u) : u.seq = .ended ∨ u.seq = s.seq := by
  obtain ⟨-, -, rfl⟩ | ⟨n, c, bytes, rfl⟩ := uploadByte_next h
  · exact .inl rfl
  · exact .inr rfl

/-- Settles O9: the poll's prologue is the one update of both roles, and each dispatch runs what the byte decodes to. -/
theorem pollRunsDecodedByte : Obligations.PollRunsDecodedByte := by
  intro s b rest i hrun hp hdecode
  refine ⟨fun hrole => ?download, fun hrole => ?upload⟩
  case download =>
    rw [hrole] at hdecode
    calc exec .pollDlByte s
      _ = handleByte b (s.setPending rest).timerReset := pollByte_cons (pollEnabled_of_running hrole hrun) hp
      _ = exec i (s.setPending rest).timerReset := handleByte_of_decode hdecode
  case upload =>
    rw [hrole] at hdecode
    have hi : decodeUpload b = i := Except.ok.inj hdecode
    calc exec .pollUlByte s
      _ = uploadByte b (s.setPending rest).timerReset := pollByte_cons (pollEnabled_of_running hrole hrun) hp
      _ = exec i (s.setPending rest).timerReset := by rw [← exec_decodeUpload, hi]

/-- The receive dispatch completes wherever its store would (41_receive.md R107). -/
theorem handleByte_completes {b : Byte} {s : State} (h : s.seq = .run → s.cur < s.cap) : ∃ u, handleByte b s = .next u := by
  cases hr : handleByte b s with
  | next u => exact ⟨u, rfl⟩
  | fault f =>
    obtain ⟨hq, hcur, -⟩ := handleByte_fault hr
    exact absurd (h hq) (Nat.not_lt.2 hcur)
  | refused r => exact absurd hr handleByte_ne_refused

theorem handleByte_of_overrun {b : Byte} {s : State} (hq : s.seq = .run) (h : s.cap ≤ s.cur) :
    handleByte b s = .fault (.bufferRange s.cur) := (handleByte_run hq b).trans (execRxRun_of_ge h)

/-- With a legal capacity the upload dispatch completes: every slot lies inside the buffer (42_transmit.md R120). -/
theorem uploadByte_completes {b : Byte} {s : State} (h : capLegal s.curw s.cap = true) : ∃ u, uploadByte b s = .next u := by
  have hcase := uploadByte_cases b s
  generalize uploadByte b s = r at hcase
  cases hcase with
  | handshake => rw [sendBlock_eq (s := { s with blk := 1#8 }) h]; exact ⟨_, rfl⟩
  | last => exact ⟨_, rfl⟩
  | next => rw [sendBlock_eq (s := { s with blk := s.blk + 1#8 }) h]; exact ⟨_, rfl⟩
  | resend => rw [sendBlock_eq h]; exact ⟨_, rfl⟩

/-- What a dispatch sends stands behind the poll's timer reset. -/
theorem trace_of_sent {s u : State} {rest bytes : List Byte}
    (h : u.trace = (s.setPending rest).timerReset.trace ++ bytes.map .tx) : u.trace = s.trace ++ .trst :: bytes.map .tx := by
  simpa using h

/-- Settles O31: the dispatch completes or its store faults, and it keeps what its frame says. -/
theorem downloadByteCompletes : Obligations.DownloadByteCompletes := by
  intro s b rest hrole hrun hp
  have hpoll : exec .pollDlByte s = handleByte b (s.setPending rest).timerReset :=
    pollByte_cons (pollEnabled_of_running hrole hrun) hp
  rw [hpoll]
  refine ⟨fun hin => ?completes, handleByte_of_overrun (s := (s.setPending rest).timerReset)⟩
  obtain ⟨u, hu⟩ := handleByte_completes (b := b) (s := (s.setPending rest).timerReset) hin
  have hcase := handleByte_cases hu
  have hf := hcase.frame
  obtain ⟨bytes, hsent, -⟩ := hcase.sent
  exact ⟨u, bytes.map .tx, hu, hf.pending, hf.elapsed, trace_of_sent hsent, hf.retry, hf.role, hf.cap, hf.inputs, hf.curw,
    hf.ulTimeoutCounts, hf.returned⟩

/-- Settles O32: the dispatch completes, and it keeps what both its frames say. -/
theorem uploadByteCompletes : Obligations.UploadByteCompletes := by
  intro s b rest hrole hrun hcap hp
  have hpoll : exec .pollUlByte s = uploadByte b (s.setPending rest).timerReset :=
    pollByte_cons (pollEnabled_of_running hrole hrun) hp
  obtain ⟨u, hu⟩ := uploadByte_completes (b := b) (s := (s.setPending rest).timerReset) hcap
  have hf := uploadByte_frame hu
  have hrx := uploadByte_receiverFrame hu
  obtain ⟨bytes, hsent⟩ := uploadByte_sent hu
  exact ⟨u, bytes.map .tx, hpoll.trans hu, hf.pending, hf.elapsed, trace_of_sent hsent, hrx.buf, hrx.cur, hrx.last, hrx.cnt,
    hrx.rxcrc, hf.retry, hf.role, hf.cap, hf.inputs, hf.curw, hf.ulTimeoutCounts, hf.returned⟩

end Sys2Proof.Machine
end

section
/-! O6, O7, O10: the parts of a step, and a byte laid where the next step takes it (00_scope.md R10, 43_session_timeout.md R142). -/

namespace Sys2Proof.Machine

/-- Settles O6: what a step adds to its operation is the close of an ended session, in a `POLL` only. -/
theorem stepRunsDecodedOperation : Obligations.StepRunsDecodedOperation := by
  intro s s1 i hin hdecode
  rw [step_eq hin hdecode, afterOperation]
  cases exec i s1 with
  | next t => cases isPoll i <;> simp [onNext, finishPoll_eq, closeEnded, State.closeSession, State.setRole]
  | fault f => cases isPoll i <;> rfl
  | refused r => cases isPoll i <;> rfl

theorem takeInput_of_noSupply {s : State} (h : s.nextInput.supply = none) :
    s.takeInput = .ok { s with
      pending := s.pending ++ s.nextInput.arrivals
      elapsed := s.elapsed + s.nextInput.wait
      inputs := s.inputs.tail } := by
  rw [State.takeInput, h]
  rfl

theorem takeInput_of_store {s : State} {bytes : List Byte} (h : s.nextInput.supply = some bytes) (hrole : s.role = .none) :
    s.takeInput = .ok { s with
      buf := Memory.ofBytes 0 bytes
      pending := s.pending ++ s.nextInput.arrivals
      elapsed := s.elapsed + s.nextInput.wait
      inputs := s.inputs.tail } := by
  rw [State.takeInput, h, State.takeSupply, if_pos hrole]
  rfl

theorem takeInput_of_storeInSession {s : State} (h : s.nextInput.supply ≠ none) (hrole : s.role ≠ .none) :
    s.takeInput = .error .bufferInUse := by
  obtain ⟨bytes, hbytes⟩ := Option.ne_none_iff_exists'.1 h
  rw [State.takeInput, hbytes, State.takeSupply, if_neg hrole]
  rfl

theorem step_of_takeInput_error {s : State} {r : Refusal} (h : s.takeInput = .error r) : step s = .refused r := by
  simp only [step, stepWith, h]

/-- What the environment's part does and leaves alone, field by field. -/
structure EnvFrame (s s1 : State) : Prop where
  seq : s1.seq = s.seq
  blk : s1.blk = s.blk
  cnt : s1.cnt = s.cnt
  crc : s1.crc = s.crc
  rxcrc : s1.rxcrc = s.rxcrc
  cur : s1.cur = s.cur
  last : s1.last = s.last
  retry : s1.retry = s.retry
  cap : s1.cap = s.cap
  role : s1.role = s.role
  trace : s1.trace = s.trace
  curw : s1.curw = s.curw
  ulTimeoutCounts : s1.ulTimeoutCounts = s.ulTimeoutCounts
  returned : s1.returned = s.returned
  supply : s.nextInput.supply = none ∨ s.role = .none
  buf : s.nextInput.supply = none → s1.buf = s.buf
  pending : s1.pending = s.pending ++ s.nextInput.arrivals
  elapsed : s1.elapsed = s.elapsed + s.nextInput.wait
  inputs : s1.inputs = s.inputs.tail

theorem takeInput_frame {s s1 : State} (h : s.takeInput = .ok s1) : EnvFrame s s1 := by
  obtain ⟨hsup, rfl⟩ := takeInput_ok h
  exact { seq := rfl, blk := rfl, cnt := rfl, crc := rfl, rxcrc := rfl, cur := rfl, last := rfl, retry := rfl, cap := rfl, role := rfl
          trace := rfl, curw := rfl, ulTimeoutCounts := rfl, returned := rfl, supply := hsup, buf := fun h => by simp [h]
          pending := rfl, elapsed := rfl, inputs := rfl }

/-- Without a store in a session the environment's part is never refused. -/
theorem takeInput_succeeds {s : State} (h : s.nextInput.supply = none ∨ s.role = .none) : ∃ s1, s.takeInput = .ok s1 := by
  cases hin : s.takeInput with
  | ok s1 => exact ⟨s1, rfl⟩
  | error r =>
    obtain ⟨-, hsup, hrole⟩ := takeInput_error hin
    exact absurd h (not_or.2 ⟨hsup, hrole⟩)

/-- Settles O7: the store is taken without a session and refused in one; the rest of the environment's part always happens. -/
theorem environmentPartOfAStep : Obligations.EnvironmentPartOfAStep := fun _ =>
  ⟨takeInput_of_noSupply, fun _ => takeInput_of_store,
    fun hsup hrole => step_of_takeInput_error (takeInput_of_storeInSession hsup hrole)⟩

theorem role_of_session {r : Role} (h : r ≠ .none) : r = .dl ∨ r = .ul := by
  cases r with
  | none => exact absurd rfl h
  | dl => exact .inl rfl
  | ul => exact .inr rfl

/-- Without a command a running session with a byte waiting runs the operation that byte decodes to, in either role. -/
theorem step_of_byte {s s1 : State} {b : Byte} {rest : List Byte} {i : Instr} (hin : s.takeInput = .ok s1)
    (hcmd : s.nextInput.cmd = none) (hrun : s1.running) (hp : s1.pending = b :: rest)
    (hi : decode ⟨s1.role, s1.seq, .byte b⟩ = .ok i) :
    step s = onNext (exec i (s1.setPending rest).timerReset) finishPoll := by
  obtain ⟨hdl, hul⟩ := pollRunsDecodedByte s1 b rest i hrun hp hi
  obtain ⟨hrole, habort, hended⟩ := hrun
  have hturn : decode (s1.selector s.nextInput.cmd) = decodePoll s1.role true := by
    have havail : s1.byteAvailable = true := byteAvailable_eq_true.2 (by simp [hp])
    rw [hcmd, ← havail]
    exact decodeTurn_running hrole habort hended
  rcases role_of_session hrole with hr | hr <;> rw [hr] at hturn
  · rw [step_eq hin hturn, afterOperation_poll rfl, hdl hr]
    rfl
  · rw [step_eq hin hturn, afterOperation_poll rfl, hul hr]
    rfl

/-- A table word is decoded in the context its byte is read in (log entry 6). -/
theorem decode_of_decodeTableWord {w : Nat} {i : Instr} (h : decodeTableWord 8 w = some i) :
    decode ⟨(tableContext (BitVec.ofNat 8 w)).1, (tableContext (BitVec.ofNat 8 w)).2, .byte (BitVec.ofNat 8 w)⟩ = .ok i := by
  simp only [decodeTableWord, if_true, decodeWire] at h
  cases hd : decode ⟨(tableContext (BitVec.ofNat 8 w)).1, (tableContext (BitVec.ofNat 8 w)).2, .byte (BitVec.ofNat 8 w)⟩ with
  | error e => simp [hd, Except.map] at h
  | ok j => simpa [hd, Except.map] using h

/-- The context a bare byte is read in is a running session. -/
theorem withInbound_running (s : State) (b : Byte) : (s.withInbound b).running := by
  unfold State.running State.withInbound tableContext
  cases isUploadCode b <;> simp

/-- Settles O10: the environment does nothing before the step, and the byte laid in front is the one it takes. -/
theorem fetchWordRunsFirst : Obligations.FetchWordRunsFirst := by
  intro s w i h
  have hin : (s.withInbound (BitVec.ofNat 8 w)).takeInput =
      .ok { s.withInbound (BitVec.ofNat 8 w) with pending := BitVec.ofNat 8 w :: s.pending ++ [], inputs := s.inputs } :=
    takeInput_of_noSupply rfl
  rw [List.append_nil] at hin
  exact step_of_byte hin rfl (withInbound_running s _) rfl (decode_of_decodeTableWord h)

end Sys2Proof.Machine
end

section
/-! O38, O39: the machine's invariant holds after reset and every step keeps it. -/

namespace Sys2Proof.Machine

/-- The part of the invariant that speaks of `CNT` (10_state.md R22). -/
structure CountFits (u : State) : Prop where
  bound : u.cnt.toNat ≤ 128
  header : u.seq = .block ∨ u.seq = .block2 → u.cnt = 0#8 ∧ u.crc = 0#16
  run : u.seq = .run → u.cnt.toNat < 128
  trailer : u.seq = .crc1 ∨ u.seq = .crc2 → u.cnt = 128#8

theorem Inv.countFits {s : State} (h : Inv s) : CountFits s := ⟨h.cntBound, h.headerFresh, h.runCount, h.trailerCount⟩

/-- Outside a frame only the bound is asked for. -/
theorem countFits_of_noFrame {u : State} (hb : u.cnt.toNat ≤ 128) (hq : u.seq = .await ∨ u.seq = .abort ∨ u.seq = .ended) :
    CountFits u := by
  refine ⟨hb, ?header, ?run, ?trailer⟩ <;> rcases hq with hq | hq | hq <;> simp [hq]

theorem HandleCase.countFits {b : Byte} {s u : State} (h : HandleCase b s u) (hs : CountFits s) : CountFits u := by
  obtain ⟨hbound, hheader, hrun, htrailer⟩ := hs
  cases h with
  | soh => exact ⟨by simp, fun _ => ⟨rfl, rfl⟩, nofun, nofun⟩
  | eot | etb => exact countFits_of_noFrame hbound (.inr (.inr rfl))
  | other | mismatch => exact countFits_of_noFrame hbound (.inr (.inl rfl))
  | commit | reject => exact countFits_of_noFrame hbound (.inl rfl)
  | block hq => exact ⟨hbound, fun _ => hheader (.inl hq), nofun, nofun⟩
  | duplicate hq | fresh hq =>
    obtain ⟨hcnt, -⟩ := hheader (.inr hq)
    exact ⟨hbound, nofun, fun _ => by simp [hcnt], nofun⟩
  | payload hq =>
    have hlt := hrun hq
    have hnext := cntNext_toNat hlt
    by_cases hc : payloadComplete (s.cnt + 1#8) = true
    · have h128 : s.cnt + 1#8 = 128#8 := BitVec.eq_of_toNat_eq (payloadComplete_iff.1 hc)
      exact ⟨by simp [h128], by simp [hc], by simp [hc], fun _ => h128⟩
    · have hne : (s.cnt + 1#8).toNat ≠ 128 := mt payloadComplete_iff.2 hc
      exact ⟨by simp only; omega, by simp [hc, hq], fun _ => by simp only; omega, by simp [hc, hq]⟩
  | crcHigh hq => exact ⟨hbound, nofun, nofun, fun _ => htrailer (.inl hq)⟩
  | terminal => exact ⟨hbound, hheader, hrun, htrailer⟩

theorem HandleCase.cur_lt {b : Byte} {s u : State} (h : HandleCase b s u) (hs : s.cur < 2 ^ s.curw) : u.cur < 2 ^ u.curw := by
  cases h with
  | duplicate | reject => exact cursorRewind_lt ..
  | payload => exact cursorNext_lt ..
  | soh | eot | etb | other | block | mismatch | fresh | crcHigh | commit | terminal => exact hs

theorem HandleCase.buf_wf {b : Byte} {s u : State} (h : HandleCase b s u) (hs : s.buf.wf = true) : u.buf.wf = true := by
  cases h with
  | payload => exact Memory.write_wf _ _ hs
  | soh | eot | etb | other | block | mismatch | duplicate | fresh | crcHigh | commit | reject | terminal => exact hs

/-- The invariant after a byte of a running session, from what its dispatch kept: what a session fixes is as before, and
`STATE = END` closes it. -/
theorem Inv.closeEnded_of_dispatch {s u : State} (hs : Inv s) (hrole : s.role ≠ .none) (hq : s.seq ≠ .abort)
    (hf : DispatchFrame s u) (hbuf : u.buf.wf = true) (hcur : u.cur < 2 ^ u.curw) (hcount : CountFits u)
    (hul : s.role = .ul → u.seq = .ended ∨ u.seq = s.seq) : Inv (closeEnded u) where
  bufWf := by simpa using hbuf
  capOk _ := by simpa [hf.cap, hf.curw] using hs.capOk hrole
  curFits := by simpa using hcur
  capFits := by simpa [hf.cap, hf.curw] using hs.capFits
  endedClosed h := by rw [closeEnded_role, if_pos (by simpa using h)]
  closedSeq h := by
    by_cases he : u.seq = .ended
    · simp [he]
    · simp [he, hf.role, hrole] at h
  uploadSeq h := by
    by_cases he : u.seq = .ended
    · simp [he] at h
    · have hr : s.role = .ul := by simpa [he, hf.role] using h
      have hkeep := (hul hr).resolve_left he
      simpa [hkeep] using hs.uploadSeq hr
  retryBound := by simpa [hf.retry] using hs.retryBound
  retryRunning _ _ := by simpa [hf.retry] using hs.retryRunning hrole hq
  cntBound := by simpa using hcount.bound
  headerFresh := by simpa using hcount.header
  runCount := by simpa using hcount.run
  trailerCount := by simpa using hcount.trailer

theorem Inv.enterAbort {s : State} (hs : Inv s) : Inv s.enterAbort :=
  { hs with
    endedClosed := nofun
    closedSeq := fun _ => .inr (.inl rfl)
    uploadSeq := fun _ => .inr rfl
    retryRunning := fun _ h => absurd rfl h
    headerFresh := nofun
    runCount := nofun
    trailerCount := nofun }

/-- `RetryCheck()` restores the invariant after a timeout was counted: `RETRY` is 16 only in `ABORT` (43_session_timeout.md R148). -/
theorem Inv.checkRetry_of_le {s : State} (hs : Inv s) {r : Byte} (hr : r.toNat ≤ 16) (elapsed : Nat) (trace : List TraceEvent) :
    Inv (checkRetry { s with retry := r, elapsed := elapsed, trace := trace }) := by
  rw [checkRetry_eq]
  by_cases h : 15 < r.toNat
  · simp only [if_pos h]
    exact { hs.enterAbort with retryBound := hr, retryRunning := fun _ hq => absurd rfl hq }
  · simp only [if_neg h]
    exact { hs with retryBound := hr, retryRunning := fun _ _ => Nat.not_lt.1 h }

theorem retryNext_toNat {r : Byte} (h : r.toNat ≤ 15) : (r + 1#8).toNat = r.toNat + 1 := cntNext_toNat (by omega)

/-- The invariant asks nothing of the transport, the timer, the trace and the inputs. -/
theorem Inv.setPending {s : State} (hs : Inv s) (p : List Byte) : Inv (s.setPending p) := { hs with }

theorem Inv.timerReset {s : State} (hs : Inv s) : Inv s.timerReset := { hs with }

theorem Inv.closeSession {s : State} (hs : Inv s) (hq : s.seq = .abort) : Inv s.closeSession :=
  { hs with
    capOk := fun h => absurd rfl h
    endedClosed := fun _ => rfl
    closedSeq := fun _ => .inr (.inl hq)
    uploadSeq := nofun
    retryRunning := fun h => absurd rfl h }

theorem Inv.startSession {s : State} (hs : Inv s) (role : Role) {cap : Nat} (hcap : capLegal s.curw cap = true)
    (hrole : role ≠ .none) : Inv (s.startSession role cap) where
  bufWf := hs.bufWf
  capOk _ := hcap
  curFits := Nat.two_pow_pos _
  capFits := by
    have hlegal := capLegal_iff.1 hcap
    simp only [State.startSession_cap, State.startSession_curw, Nat.pow_succ]
    omega
  endedClosed := nofun
  closedSeq h := absurd h hrole
  uploadSeq _ := .inl rfl
  retryBound := by simp
  retryRunning _ _ := by simp
  cntBound := by simp
  headerFresh := nofun
  runCount := nofun
  trailerCount := nofun

theorem Inv.resetRegisters {s : State} (hs : Inv s) : Inv s.resetRegisters where
  bufWf := hs.bufWf
  capOk h := absurd rfl h
  curFits := Nat.two_pow_pos _
  capFits := Nat.two_pow_pos _
  endedClosed := nofun
  closedSeq _ := .inl rfl
  uploadSeq := nofun
  retryBound := by simp
  retryRunning h := absurd rfl h
  cntBound := by simp
  headerFresh := nofun
  runCount := nofun
  trailerCount := nofun

/-- The environment can only replace the buffer, and by one in canonical form. -/
theorem Inv.takeInput {s s1 : State} (hs : Inv s) (h : s.takeInput = .ok s1) : Inv s1 := by
  obtain ⟨-, rfl⟩ := takeInput_ok h
  refine { hs with bufWf := ?bufWf }
  cases hsup : s.nextInput.supply with
  | none => exact hs.bufWf
  | some bytes => exact Memory.ofBytes_wf 0 bytes

theorem StepCase.inv {s1 t : State} {c : Option HostCmd} (hs : Inv s1) (h : StepCase s1 c t) : Inv t := by
  cases h with
  | reset => exact hs.resetRegisters
  | startDl cap _ _ hcap => exact { hs.startSession .dl hcap (by simp) with }
  | startUl cap _ _ hcap => exact { hs.startSession .ul hcap (by simp) with }
  | dlByte b rest u _ hrole hq _ _ hd =>
    have hc := handleByte_cases hd
    have hs' := (hs.setPending rest).timerReset
    refine hs'.closeEnded_of_dispatch (by simp [hrole]) hq hc.frame (hc.buf_wf hs'.bufWf) (hc.cur_lt hs'.curFits)
      (hc.countFits hs'.countFits) ?_
    simp [hrole]
  | ulByte b rest u _ hrole hq _ _ hd =>
    have hf := uploadByte_frame hd
    have hrx := uploadByte_receiverFrame hd
    have hseq := uploadByte_seq hd
    have hs' := (hs.setPending rest).timerReset
    refine hs'.closeEnded_of_dispatch (by simp [hrole]) hq hf (by simpa [hrx.buf] using hs.bufWf)
      (by simpa [hrx.cur, hf.curw] using hs.curFits) ?count (fun _ => hseq)
    refine countFits_of_noFrame (by simpa [hrx.cnt] using hs.cntBound) ?_
    have hawait := (hs.uploadSeq hrole).resolve_right hq
    exact hseq.elim (fun he => .inr (.inr he)) (fun he => .inl (he.trans hawait))
  | quiet _ _ _ _ _ _ => exact hs.checkRetry_of_le hs.retryBound s1.elapsed s1.trace
  | ulTimeoutIgnored => exact hs.checkRetry_of_le hs.retryBound s1.elapsed s1.trace
  | dlTimeout _ hrole hq | ulTimeoutCounted _ hrole hq =>
    have hlow := hs.retryRunning (by simp [hrole]) hq
    have hnext := retryNext_toNat hlow
    exact hs.checkRetry_of_le (r := s1.retry + 1#8) (by omega) _ _
  | drainByte b rest => exact hs.setPending rest
  | drainEnd _ _ hq => exact hs.closeSession hq

/-- Settles O38: no session, no frame, and every register 0. -/
theorem resetMeetsInvariants : Obligations.ResetMeetsInvariants :=
  ⟨by constructor <;> decide, nofun⟩

/-- Settles O39: the environment's part keeps the invariant, and so does each thing a step can do. -/
theorem stepKeepsInvariant : Obligations.StepKeepsInvariant := by
  intro s t hs h
  obtain ⟨s1, hin, hcase⟩ := step_cases h
  exact hcase.inv (hs.takeInput hin)

end Sys2Proof.Machine
end

section
/-! O40: `CRC` is the CRC of what was stored, from the first payload byte to the compare (41_receive.md R107, R109). -/

namespace Sys2Proof.Machine

/-- Before the first payload byte there is nothing to compare with. -/
theorem payloadCoherent_of_empty {s : State} (hcnt : s.cnt = 0#8) (hcrc : s.crc = 0#16) : PayloadCoherent s := by
  intro _ _
  simp [hcnt, hcrc, Memory.slice]

theorem payloadCoherent_of_seq {s : State} (h : s.seq ≠ .run ∧ s.seq ≠ .crc1 ∧ s.seq ≠ .crc2) : PayloadCoherent s := by
  intro _ hq
  obtain ⟨hrun, hcrc1, hcrc2⟩ := h
  exact absurd hq (by simp [hrun, hcrc1, hcrc2])

theorem payloadCoherent_of_role {s : State} (h : s.role ≠ .dl) : PayloadCoherent s := fun hr => absurd hr h

/-- The fields the coherence speaks of. -/
theorem PayloadCoherent.congr {s u : State} (hs : PayloadCoherent s) (hrole : u.role = s.role) (hseq : u.seq = s.seq)
    (hcnt : u.cnt = s.cnt) (hcur : u.cur = s.cur) (hcap : u.cap = s.cap) (hcrc : u.crc = s.crc) (hbuf : u.buf = s.buf) :
    PayloadCoherent u := by
  unfold PayloadCoherent
  rw [hrole, hseq, hcnt, hcur, hcap, hcrc, hbuf]
  exact hs

/-- The CRC of a slice goes on with the byte stored behind it: the store changes no byte of the slice. -/
theorem crcOf_slice_write {m : Memory} (hm : m.wf = true) {a k : Nat} (b : Byte) :
    crcOf ((m.write (a + k) b).slice a (k + 1)) = crcUpdate (crcOf (m.slice a k)) b := by
  have hkept : (m.write (a + k) b).slice a k = m.slice a k :=
    Memory.slice_congr fun i hi => by rw [Memory.read_write _ _ _ hm, if_neg (by omega)]
  rw [Memory.slice_succ, hkept, Memory.read_write _ _ _ hm, if_pos rfl, crcOf_concat]

/-- A payload byte: the slice below the cursor grows by the byte folded into `CRC` (41_receive.md R107). -/
theorem PayloadCoherent.storeByte {s : State} (hs : Inv s) (hp : PayloadCoherent s) (hrole : s.role = .dl) (hq : s.seq = .run)
    (hcur : s.cur < s.cap) (b : Byte) (q : SeqState) :
    PayloadCoherent { s with
      crc := crcUpdate s.crc b, buf := s.buf.write s.cur b, cur := cursorNext s.curw s.cur, cnt := s.cnt + 1#8, seq := q } := by
  obtain ⟨hle, -, hcrc⟩ := hp hrole (.inl hq)
  obtain ⟨-, -, hfits⟩ := capLegal_iff.1 (hs.capOk (by simp [hrole]))
  have hnext : cursorNext s.curw s.cur = s.cur + 1 := cursorNext_of_lt (by omega)
  have hcount := cntNext_toNat (hs.runCount hq)
  intro _ _
  simp only [hnext, hcount]
  refine ⟨by omega, fun _ => by omega, ?_⟩
  have hslice := crcOf_slice_write hs.bufWf (a := s.cur - s.cnt.toNat) (k := s.cnt.toNat) b
  rw [Nat.sub_add_cancel hle] at hslice
  rw [Nat.add_sub_add_right, hslice, hcrc]

theorem HandleCase.payloadCoherent {b : Byte} {s u : State} (hs : Inv s) (hp : PayloadCoherent s) (hrole : s.role = .dl)
    (h : HandleCase b s u) : PayloadCoherent u := by
  cases h with
  | soh | eot | etb | other | block | mismatch | commit | reject => exact payloadCoherent_of_seq (by simp)
  | duplicate hq | fresh hq =>
    obtain ⟨hcnt, hcrc⟩ := hs.headerFresh (.inr hq)
    exact payloadCoherent_of_empty hcnt hcrc
  | payload hq hcur => exact hp.storeByte hs hrole hq hcur b _
  | crcHigh hq => exact fun hr _ => hp hr (.inr (.inl hq))
  | terminal => exact hp

theorem PayloadCoherent.closeEnded {u : State} (hu : PayloadCoherent u) : PayloadCoherent (closeEnded u) := by
  by_cases he : u.seq = .ended
  · exact payloadCoherent_of_role (by simp [he])
  · rwa [closeEnded_of_ne he]

theorem PayloadCoherent.checkRetry {u : State} (hu : PayloadCoherent u) : PayloadCoherent (checkRetry u) := by
  rw [checkRetry_eq]
  split
  · exact payloadCoherent_of_seq (by simp)
  · exact hu

/-- A store is only taken without a session, where the invariant asks nothing. -/
theorem PayloadCoherent.takeInput {s s1 : State} (hp : PayloadCoherent s) (h : s.takeInput = .ok s1) : PayloadCoherent s1 := by
  have he := takeInput_frame h
  rcases he.supply with hsup | hrole
  · exact hp.congr he.role he.seq he.cnt he.cur he.cap he.crc (he.buf hsup)
  · exact payloadCoherent_of_role (by simp [he.role, hrole])

theorem StepCase.payloadCoherent {s1 t : State} {c : Option HostCmd} (hs : Inv s1) (hp : PayloadCoherent s1)
    (h : StepCase s1 c t) : PayloadCoherent t := by
  cases h with
  | reset | drainEnd => exact payloadCoherent_of_role (by simp)
  | startDl | startUl => exact payloadCoherent_of_seq (by simp)
  | dlByte b rest u _ hrole _ _ _ hd =>
    have hs' := (hs.setPending rest).timerReset
    have hp' : PayloadCoherent (s1.setPending rest).timerReset := hp.congr rfl rfl rfl rfl rfl rfl rfl
    exact ((handleByte_cases hd).payloadCoherent hs' hp' hrole).closeEnded
  | ulByte b rest u _ hrole _ _ _ hd =>
    have hne : u.role ≠ .dl := by simp [(uploadByte_frame hd).role, hrole]
    exact (payloadCoherent_of_role hne).closeEnded
  | quiet | ulTimeoutIgnored => exact hp.checkRetry
  | dlTimeout | ulTimeoutCounted => exact PayloadCoherent.checkRetry (hp.congr rfl rfl rfl rfl rfl rfl rfl)
  | drainByte => exact hp.congr rfl rfl rfl rfl rfl rfl rfl

/-- Settles O40: the environment's part keeps the coherence, and so does each thing a step can do. -/
theorem stepKeepsPayloadCoherence : Obligations.StepKeepsPayloadCoherence := by
  intro s t hs hp h
  obtain ⟨s1, hin, hcase⟩ := step_cases h
  exact hcase.payloadCoherent (hs.takeInput hin) (hp.takeInput hin)

/-- Settles O41: in `CRC2` the coherence is about 128 bytes, so the compare is with the CRC of what is stored, and the rewind of
a rejected block cannot wrap. -/
theorem ackExactlyForMatchingStoredPayload : Obligations.AckExactlyForMatchingStoredPayload := by
  intro s b hs hp hrole hq
  obtain ⟨hle, -, hcrc⟩ := hp hrole (.inr (.inr hq))
  have hcnt : s.cnt.toNat = 128 := by simp [hs.trailerCount (.inr hq)]
  rw [hcnt] at hle hcrc
  rw [← hcrc]
  have hrewind : cursorRewind s.curw s.cur = s.cur - 128 := cursorRewind_of_le hle hs.curFits
  rw [← hrewind]
  exact ⟨execRxCrc2_of_match, execRxCrc2_of_mismatch⟩

end Sys2Proof.Machine
end

section
/-! O42, O43: where a step stops. A command completes or fails its check; the block's own turn in a session completes, or faults at a
payload byte past the buffer (00_scope.md R11, 20_memory.md R54). -/

namespace Sys2Proof.Machine

theorem step_of_reset {s s1 : State} (hin : s.takeInput = .ok s1) (hcmd : s.nextInput.cmd = some .reset) :
    step s = .next s1.resetRegisters :=
  step_eq (i := .reset) hin (by rw [hcmd]; rfl)

/-- Both start commands are `startCheck` and a start that completes. -/
theorem step_of_start {s s1 : State} {cap : Nat} (hin : s.takeInput = .ok s1)
    (hcmd : s.nextInput.cmd = some (.startDl cap) ∨ s.nextInput.cmd = some (.startUl cap)) :
    ∃ start : State → State, step s = startCheck cap s1 (fun s0 => .next (start s0)) := by
  rcases hcmd with hcmd | hcmd
  · exact ⟨fun s0 => ((s0.startSession .dl cap).putByte Config.handshake).timerReset,
      step_eq (i := .startDl cap) hin (by rw [hcmd]; rfl)⟩
  · exact ⟨fun s0 => (s0.startSession .ul cap).timerReset, step_eq (i := .startUl cap) hin (by rw [hcmd]; rfl)⟩

theorem step_of_noSession {s s1 : State} (hin : s.takeInput = .ok s1) (hcmd : s.nextInput.cmd = none) (hrole : s1.role = .none) :
    step s = .refused .notEnabled := by
  have hdecode : decode (s1.selector s.nextInput.cmd) = .error .noSession := by
    rw [hcmd]
    exact if_pos hrole
  simp only [step, stepWith, hin, hdecode]

theorem decodeTurn_abort {role : Role} {a : Bool} (h : role ≠ .none) : decodeTurn role .abort a = .ok .drain := if_neg h

theorem step_of_abort {s s1 : State} (hin : s.takeInput = .ok s1) (hcmd : s.nextInput.cmd = none) (hrole : s1.role ≠ .none)
    (hq : s1.seq = .abort) : ∃ t, step s = .next t := by
  have hdecode : decode (s1.selector s.nextInput.cmd) = .ok .drain := by
    rw [hcmd, ← decodeTurn_abort (a := s1.byteAvailable) hrole, ← hq]
    rfl
  obtain ⟨hbyte, hempty⟩ := drainResult s1 hrole hq
  have hstep : step s = exec .drain s1 := step_eq hin hdecode
  cases hp : s1.pending with
  | nil => exact ⟨_, hstep.trans (hempty hp)⟩
  | cons b rest => exact ⟨_, hstep.trans (hbyte b rest hp)⟩

/-- In a running session with nothing waiting the turn is the idle poll of the role. -/
theorem decode_idleTurn {s s1 : State} (hcmd : s.nextInput.cmd = none) (hrun : s1.running) (hp : s1.pending = []) :
    decode (s1.selector s.nextInput.cmd) = decodePoll s1.role false := by
  obtain ⟨hrole, habort, hended⟩ := hrun
  have havail : s1.byteAvailable = false := by simp [State.byteAvailable, hp]
  rw [hcmd, ← havail]
  exact decodeTurn_running hrole habort hended

theorem step_of_dlIdle {s s1 : State} (hin : s.takeInput = .ok s1) (hcmd : s.nextInput.cmd = none) (hrun : s1.running)
    (hrole : s1.role = .dl) (hp : s1.pending = []) : step s = onNext (exec .pollDlIdle s1) finishPoll := by
  have hturn := decode_idleTurn hcmd hrun hp
  rw [hrole] at hturn
  rw [step_eq hin hturn, afterOperation_poll rfl]

theorem step_of_ulIdle {s s1 : State} (hin : s.takeInput = .ok s1) (hcmd : s.nextInput.cmd = none) (hrun : s1.running)
    (hrole : s1.role = .ul) (hp : s1.pending = []) : step s = onNext (exec .pollUlIdle s1) finishPoll := by
  have hturn := decode_idleTurn hcmd hrun hp
  rw [hrole] at hturn
  rw [step_eq hin hturn, afterOperation_poll rfl]

theorem step_of_idle {s s1 : State} (hin : s.takeInput = .ok s1) (hcmd : s.nextInput.cmd = none) (hrun : s1.running)
    (hp : s1.pending = []) : ∃ t, step s = .next t := by
  have ⟨hrole, _, _⟩ := hrun
  rcases role_of_session hrole with hr | hr
  · rw [step_of_dlIdle hin hcmd hrun hr hp, exec_pollDlIdle, pollIdle_enabled (pollEnabled_of_running hr hrun) hp]
    exact ⟨_, finishPoll_eq _⟩
  · rw [step_of_ulIdle hin hcmd hrun hr hp, exec_pollUlIdle, pollIdle_enabled (pollEnabled_of_running hr hrun) hp]
    exact ⟨_, finishPoll_eq _⟩

theorem step_of_dlByte {s s1 : State} {b : Byte} {rest : List Byte} (hin : s.takeInput = .ok s1) (hcmd : s.nextInput.cmd = none)
    (hrun : s1.running) (hrole : s1.role = .dl) (hp : s1.pending = b :: rest) :
    step s = onNext (handleByte b (s1.setPending rest).timerReset) finishPoll := by
  have hdecode : decode ⟨.dl, s1.seq, .byte b⟩ = .ok (decodeReceive s1.seq b) := rfl
  rw [handleByte_of_decode (s := (s1.setPending rest).timerReset) hdecode]
  exact step_of_byte hin hcmd hrun hp (by rw [hrole]; exact hdecode)

theorem step_of_ulByte {s s1 : State} {b : Byte} {rest : List Byte} (hin : s.takeInput = .ok s1) (hcmd : s.nextInput.cmd = none)
    (hrun : s1.running) (hrole : s1.role = .ul) (hp : s1.pending = b :: rest) :
    step s = onNext (uploadByte b (s1.setPending rest).timerReset) finishPoll := by
  rw [← exec_decodeUpload]
  exact step_of_byte hin hcmd hrun hp (by rw [hrole]; rfl)

/-- A download's payload byte waits with the cursor at or past the capacity. -/
def Overruns (s : State) : Prop := s.role = .dl ∧ s.seq = .run ∧ s.pending ≠ [] ∧ s.cap ≤ s.cur

theorem step_of_overrun {s s1 : State} (hin : s.takeInput = .ok s1) (hcmd : s.nextInput.cmd = none) (h : Overruns s1) :
    step s = .fault (.bufferRange s1.cur) := by
  obtain ⟨hrole, hq, hp, hcur⟩ := h
  obtain ⟨b, rest, hp⟩ := List.exists_cons_of_ne_nil hp
  have hrun : s1.running := ⟨by simp [hrole], by simp [hq], by simp [hq]⟩
  rw [step_of_dlByte hin hcmd hrun hrole hp, handleByte_of_overrun (s := (s1.setPending rest).timerReset) hq hcur]
  rfl

/-- In a session that meets the invariant the block's own turn completes unless it overruns: no session is without a step. -/
theorem step_of_turn {s s1 : State} (hs : Inv s1) (hin : s.takeInput = .ok s1) (hcmd : s.nextInput.cmd = none)
    (hrole : s1.role ≠ .none) (hover : ¬ Overruns s1) : ∃ t, step s = .next t := by
  by_cases habort : s1.seq = .abort
  · exact step_of_abort hin hcmd hrole habort
  have hrun : s1.running := ⟨hrole, habort, mt hs.endedClosed hrole⟩
  cases hp : s1.pending with
  | nil => exact step_of_idle hin hcmd hrun hp
  | cons b rest =>
    rcases role_of_session hrole with hr | hr
    · have hcur : s1.seq = .run → s1.cur < s1.cap := fun hq => Nat.not_le.1 fun hle => hover ⟨hr, hq, by simp [hp], hle⟩
      obtain ⟨u, hu⟩ := handleByte_completes (b := b) (s := (s1.setPending rest).timerReset) hcur
      rw [step_of_dlByte hin hcmd hrun hr hp, hu]
      exact ⟨_, finishPoll_eq u⟩
    · obtain ⟨u, hu⟩ := uploadByte_completes (b := b) (s := (s1.setPending rest).timerReset) (hs.capOk hrole)
      rw [step_of_ulByte hin hcmd hrun hr hp, hu]
      exact ⟨_, finishPoll_eq u⟩

/-- Why a step does not complete, from a state that meets the invariant: the environment's part, a start's check, no session, or an
overrun. -/
theorem step_stops {s : State} (hs : Inv s) (h : ∀ t, step s ≠ .next t) :
    (s.takeInput = .error .bufferInUse ∧ s.nextInput.supply ≠ none ∧ s.role ≠ .none) ∨
    ∃ s1, s.takeInput = .ok s1 ∧
      ((∃ cap, (s.nextInput.cmd = some (.startDl cap) ∨ s.nextInput.cmd = some (.startUl cap)) ∧
          (s1.role ≠ .none ∨ capLegal s1.curw cap = false)) ∨
        (s.nextInput.cmd = none ∧ (s1.role = .none ∨ Overruns s1))) := by
  cases hin : s.takeInput with
  | error r =>
    obtain ⟨rfl, hsup, hrole⟩ := takeInput_error hin
    exact .inl ⟨rfl, hsup, hrole⟩
  | ok s1 =>
    refine .inr ⟨s1, rfl, ?_⟩
    have hstart (cap : Nat) (hc : s.nextInput.cmd = some (.startDl cap) ∨ s.nextInput.cmd = some (.startUl cap)) :
        s1.role ≠ .none ∨ capLegal s1.curw cap = false := by
      obtain ⟨start, hstep⟩ := step_of_start hin hc
      by_contra hpass
      rw [not_or, not_not, Bool.not_eq_false] at hpass
      obtain ⟨hrole, hcap⟩ := hpass
      exact h _ (hstep.trans (startCheck_of_legal hrole hcap))
    cases hcmd : s.nextInput.cmd with
    | none =>
      refine .inr ⟨rfl, ?_⟩
      by_contra hgo
      obtain ⟨hrole, hover⟩ := not_or.1 hgo
      obtain ⟨t, ht⟩ := step_of_turn (hs.takeInput hin) hin hcmd hrole hover
      exact h t ht
    | some c =>
      refine .inl ?_
      cases c with
      | reset => exact absurd (step_of_reset hin hcmd) (h _)
      | startDl cap => exact ⟨cap, .inl rfl, hstart cap (.inl hcmd)⟩
      | startUl cap => exact ⟨cap, .inr rfl, hstart cap (.inr hcmd)⟩

theorem startCheck_ne_fault {cap : Nat} {s : State} {start : State → State} {f : Fault} :
    startCheck cap s (fun s0 => .next (start s0)) ≠ .fault f := by
  unfold startCheck
  split_ifs <;> exact nofun

/-- Settles O42: an overrun is the only stop that is a fault, and every overrun is one. -/
theorem faultExactlyForPayloadPastTheBuffer : Obligations.FaultExactlyForPayloadPastTheBuffer := by
  intro s f hs
  constructor
  · intro h
    obtain ⟨herr, -⟩ | ⟨s1, hin, ⟨cap, hcmd, -⟩ | ⟨hcmd, hnone | hover⟩⟩ := step_stops hs (by simp [h])
    · simp [step_of_takeInput_error herr] at h
    · obtain ⟨start, hstep⟩ := step_of_start hin hcmd
      exact absurd (hstep.symm.trans h) startCheck_ne_fault
    · simp [step_of_noSession hin hcmd hnone] at h
    · have hf : Fault.bufferRange s1.cur = f := Host.Outcome.fault.inj ((step_of_overrun hin hcmd hover).symm.trans h)
      have he := takeInput_frame hin
      obtain ⟨hrole, hq, hp, hcur⟩ := hover
      rw [he.role] at hrole
      exact ⟨hrole, he.seq ▸ hq, hcmd, he.supply.resolve_right (by simp [hrole]), he.pending ▸ hp, by rwa [he.cap, he.cur] at hcur,
        by rw [← hf, he.cur]⟩
  · rintro ⟨hrole, hq, hcmd, hsup, hp, hcur, rfl⟩
    obtain ⟨s1, hin⟩ := takeInput_succeeds (.inl hsup)
    have he := takeInput_frame hin
    have hover : Overruns s1 := ⟨he.role.trans hrole, he.seq.trans hq, by rwa [he.pending], by rwa [he.cap, he.cur]⟩
    rw [step_of_overrun hin hcmd hover, he.cur]

/-- Settles O43: of the stops, all but the overrun are refusals, each with its own reason. -/
theorem refusalsOfAStep : Obligations.RefusalsOfAStep := by
  intro s r hs
  constructor
  · intro h
    obtain ⟨herr, hsup, hrole⟩ | ⟨s1, hin, ⟨cap, hcmd, hfail⟩ | ⟨hcmd, hnone | hover⟩⟩ := step_stops hs (by simp [h])
    · rw [step_of_takeInput_error herr] at h
      exact .inl ⟨hrole, hsup, (Host.Outcome.refused.inj h).symm⟩
    · obtain ⟨start, hstep⟩ := step_of_start hin hcmd
      have he := takeInput_frame hin
      rw [hstep] at h
      by_cases hrole : s1.role = .none
      · have hcap := hfail.resolve_left (not_not.2 hrole)
        rw [startCheck_of_illegal hrole hcap] at h
        exact .inr (.inr (.inl ⟨he.role ▸ hrole, ⟨cap, hcmd, he.curw ▸ hcap⟩, (Host.Outcome.refused.inj h).symm⟩))
      · rw [startCheck_of_active hrole] at h
        rw [he.role] at hrole
        exact .inr (.inl ⟨hrole, he.supply.resolve_right hrole, ⟨cap, hcmd⟩, (Host.Outcome.refused.inj h).symm⟩)
    · rw [step_of_noSession hin hcmd hnone] at h
      exact .inr (.inr (.inr ⟨(takeInput_frame hin).role ▸ hnone, hcmd, (Host.Outcome.refused.inj h).symm⟩))
    · simp [step_of_overrun hin hcmd hover] at h
  · rintro (⟨hrole, hsup, rfl⟩ | ⟨hrole, hsup, ⟨cap, hcmd⟩, rfl⟩ | ⟨hrole, ⟨cap, hcmd, hcap⟩, rfl⟩ | ⟨hrole, hcmd, rfl⟩)
    · exact step_of_takeInput_error (takeInput_of_storeInSession hsup hrole)
    · obtain ⟨s1, hin⟩ := takeInput_succeeds (.inl hsup)
      obtain ⟨start, hstep⟩ := step_of_start hin hcmd
      exact hstep.trans (startCheck_of_active (by rwa [(takeInput_frame hin).role]))
    · obtain ⟨s1, hin⟩ := takeInput_succeeds (.inr hrole)
      have he := takeInput_frame hin
      obtain ⟨start, hstep⟩ := step_of_start hin hcmd
      exact hstep.trans (startCheck_of_illegal (he.role.trans hrole) (by rwa [he.curw]))
    · obtain ⟨s1, hin⟩ := takeInput_succeeds (.inr hrole)
      exact step_of_noSession hin hcmd ((takeInput_frame hin).role.trans hrole)

end Sys2Proof.Machine
end

section
/-! O44 to O54: what a step that completes leaves unchanged and what it sends. Each is a case analysis of `StepCase`; the two cases that
take a byte share one frame. -/

namespace Sys2Proof.Machine

/-- What a step that takes the oldest byte, in either role, leaves: `rest` is what waits behind that byte. -/
structure ByteFrame (s1 t : State) (rest : List Byte) : Prop where
  role : t.role = if t.seq = .ended then .none else s1.role
  cap : t.cap = s1.cap
  retry : t.retry = s1.retry
  curw : t.curw = s1.curw
  ulTimeoutCounts : t.ulTimeoutCounts = s1.ulTimeoutCounts
  returned : t.returned = s1.returned
  inputs : t.inputs = s1.inputs
  pending : t.pending = rest
  elapsed : t.elapsed = 0

theorem DispatchFrame.byteFrame {s1 u : State} {rest : List Byte} (h : DispatchFrame (s1.setPending rest).timerReset u) :
    ByteFrame s1 (closeEnded u) rest := by
  constructor <;> simp [h.role, h.cap, h.retry, h.curw, h.ulTimeoutCounts, h.returned, h.inputs, h.pending, h.elapsed]

/-! ## The buffer and `LAST` -/

theorem HandleCase.buf_of_ne_run {b : Byte} {s u : State} (h : HandleCase b s u) (hq : s.seq ≠ .run) : u.buf = s.buf := by
  cases h with
  | payload hrun => exact absurd hrun hq
  | soh | eot | etb | other | block | mismatch | duplicate | fresh | crcHigh | commit | reject | terminal => rfl

theorem StepCase.buf {s1 t : State} {c : Option HostCmd} (h : StepCase s1 c t)
    (hno : s1.role ≠ .dl ∨ s1.seq ≠ .run ∨ c ≠ none ∨ s1.pending = []) : t.buf = s1.buf := by
  cases h with
  | dlByte b rest u hc hrole _ _ hp hd =>
    have hq : s1.seq ≠ .run := by simpa [hc, hrole, hp] using hno
    simpa using (handleByte_cases hd).buf_of_ne_run hq
  | ulByte b rest u _ _ _ _ _ hd => simpa using (uploadByte_receiverFrame hd).buf
  | quiet | dlTimeout | ulTimeoutCounted | ulTimeoutIgnored => simp [checkRetry_eq]
  | reset | startDl | startUl | drainByte | drainEnd => rfl

/-- A payload byte inside the buffer is stored at the cursor. -/
theorem step_of_payload {s s1 : State} {b : Byte} {rest : List Byte} (hin : s.takeInput = .ok s1) (hcmd : s.nextInput.cmd = none)
    (hrole : s1.role = .dl) (hq : s1.seq = .run) (hp : s1.pending = b :: rest) (hcur : s1.cur < s1.cap) :
    ∃ t, step s = .next t ∧ t.buf = s1.buf.write s1.cur b := by
  have hrun : s1.running := ⟨by simp [hrole], by simp [hq], by simp [hq]⟩
  rw [step_of_dlByte hin hcmd hrun hrole hp, handleByte_run (s := (s1.setPending rest).timerReset) hq,
    execRxRun_of_lt (s := (s1.setPending rest).timerReset) hcur]
  exact ⟨_, finishPoll_eq _, by simp⟩

/-- Settles O44: the payload byte is stored where the store does not fault, and no other case of a step writes the buffer. -/
theorem bufferWrittenOnlyByPayload : Obligations.BufferWrittenOnlyByPayload := by
  intro s t hs h hsup
  obtain ⟨s1, hin, hcase⟩ := step_cases h
  have he := takeInput_frame hin
  constructor
  · intro b rest hrole hq hcmd hp
    have hrole1 := he.role.trans hrole
    have hq1 := he.seq.trans hq
    have hp1 := he.pending.trans hp
    have hcur : s1.cur < s1.cap := by
      by_contra hge
      have hfault := step_of_overrun hin hcmd ⟨hrole1, hq1, by simp [hp1], Nat.not_lt.1 hge⟩
      simp [hfault] at h
    obtain ⟨t', ht', hbuf⟩ := step_of_payload hin hcmd hrole1 hq1 hp1 hcur
    obtain rfl : t' = t := Host.Outcome.next.inj (ht'.symm.trans h)
    rw [he.cur, he.buf hsup] at hbuf
    rw [he.cur, he.cap] at hcur
    simp only [hbuf, Memory.read_write _ _ _ hs.bufWf]
    exact ⟨hcur, if_pos trivial, fun k hk => if_neg hk⟩
  · intro hno
    rw [hcase.buf (by rwa [he.role, he.seq, he.pending]), he.buf hsup]

theorem HandleCase.last {b : Byte} {s u : State} (h : HandleCase b s u) (hl : u.last ≠ s.last) :
    s.seq = .crc2 ∧ withLowOctet s.rxcrc b = s.crc ∧ u.last = s.blk ∧ u.trace = s.trace ++ [.tx 0x06#8] := by
  cases h with
  | commit hq hm => exact ⟨hq, hm, rfl, rfl⟩
  | soh | eot | etb | other | block | mismatch | duplicate | fresh | payload | crcHigh | reject | terminal => exact absurd rfl hl

/-- Settles O45: outside commands only `RX.CRC2` on a match writes `LAST`. -/
theorem lastChangesOnlyByCommit : Obligations.LastChangesOnlyByCommit := by
  intro s t h hl
  obtain ⟨s1, hin, hcase⟩ := step_cases h
  have he := takeInput_frame hin
  rw [← he.last] at hl
  cases hcase with
  | reset hc | startDl _ hc | startUl _ hc => exact .inl (by simp [hc])
  | dlByte b rest u hc hrole _ _ hp hd =>
    obtain ⟨hq, hm, hblk, htrace⟩ := (handleByte_cases hd).last (by simpa using hl)
    simp only [State.timerReset_seq, State.setPending_seq, State.timerReset_rxcrc, State.setPending_rxcrc, State.timerReset_crc,
      State.setPending_crc, he.seq, he.rxcrc, he.crc] at hq hm
    refine .inr ⟨he.role ▸ hrole, hq, by simpa [he.blk] using hblk, by simpa [he.trace] using htrace, b, rest, ?_, hm⟩
    rw [← he.pending, hp]
  | ulByte b rest u _ _ _ _ _ hd => exact absurd (uploadByte_receiverFrame hd).last (by simpa using hl)
  | quiet | dlTimeout | ulTimeoutCounted | ulTimeoutIgnored => simp [checkRetry_eq] at hl
  | drainByte | drainEnd => exact absurd rfl hl

/-! ## The session -/

/-- Settles O46: only a counted timeout changes `RETRY`, and below 255 it counts up. -/
theorem sessionKeepsRoleCapacityAndCountsUp : Obligations.SessionKeepsRoleCapacityAndCountsUp := by
  intro s t hs h hrole htrole
  obtain ⟨s1, hin, hcase⟩ := step_cases h
  have he := takeInput_frame hin
  have hs1 := hs.takeInput hin
  rw [← he.role] at hrole
  rw [← he.role, ← he.cap, ← he.retry]
  have hbyte {u : State} {rest : List Byte} (hf : ByteFrame s1 u rest) (hne : u.role ≠ .none) :
      u.role = s1.role ∧ u.cap = s1.cap ∧ s1.retry.toNat ≤ u.retry.toNat ∧ u.retry.toNat ≤ s1.retry.toNat + 1 := by
    have hr := hf.role
    rw [if_neg (fun hq => hne (by rw [hr, if_pos hq]))] at hr
    exact ⟨hr, hf.cap, by rw [hf.retry], by rw [hf.retry]; omega⟩
  cases hcase with
  | reset => exact absurd rfl htrole
  | startDl _ _ hnone | startUl _ _ hnone => exact absurd hnone hrole
  | dlByte b rest u _ _ _ _ _ hd => exact hbyte (handleByte_cases hd).frame.byteFrame htrole
  | ulByte b rest u _ _ _ _ _ hd => exact hbyte (uploadByte_frame hd).byteFrame htrole
  | quiet | ulTimeoutIgnored => simp [checkRetry_eq]
  | dlTimeout _ _ hq | ulTimeoutCounted _ _ hq =>
    have hnext := retryNext_toNat (hs1.retryRunning hrole hq)
    simp [checkRetry_eq, hnext]
  | drainByte => exact ⟨rfl, rfl, Nat.le_refl _, Nat.le_succ _⟩
  | drainEnd => exact absurd rfl htrole

/-- Settles O47: the polls close a session only with `STATE = END`, the drain only when nothing waits. -/
theorem sessionClosesOnlyByEndDrainOrReset : Obligations.SessionClosesOnlyByEndDrainOrReset := by
  intro s t h hrole htrole
  obtain ⟨s1, hin, hcase⟩ := step_cases h
  have he := takeInput_frame hin
  rw [← he.role] at hrole
  have hbyte {u : State} {rest : List Byte} (hf : ByteFrame s1 u rest) (hnone : u.role = .none) : u.seq = .ended := by
    by_contra hne
    rw [hf.role, if_neg hne] at hnone
    exact hrole hnone
  cases hcase with
  | reset hc => exact .inl hc
  | startDl _ _ hnone | startUl _ _ hnone => exact absurd hnone hrole
  | dlByte b rest u _ _ _ _ _ hd => exact .inr (.inl (hbyte (handleByte_cases hd).frame.byteFrame htrole))
  | ulByte b rest u _ _ _ _ _ hd => exact .inr (.inl (hbyte (uploadByte_frame hd).byteFrame htrole))
  | quiet | dlTimeout | ulTimeoutCounted | ulTimeoutIgnored => exact absurd (by simpa [checkRetry_eq] using htrole) hrole
  | drainByte => exact absurd htrole hrole
  | drainEnd _ _ hq hp => exact .inr (.inr ⟨he.seq ▸ hq, hq, he.pending ▸ hp⟩)

/-! ## The trace and the timer -/

/-- What a step appends to the trace: a timer reset exactly when the elapsed time became 0, and outside an upload three codes only. -/
structure Emits (s1 t : State) (ev : List TraceEvent) : Prop where
  trace : t.trace = s1.trace ++ ev
  timer : (.trst ∈ ev ∧ t.elapsed = 0) ∨ (.trst ∉ ev ∧ t.elapsed = s1.elapsed)
  codes : s1.role ≠ .ul → ∀ b, .tx b ∈ ev → b = 0x06#8 ∨ b = 0x15#8 ∨ b = 0x43#8

theorem emits_nothing {s1 t : State} (htrace : t.trace = s1.trace) (helapsed : t.elapsed = s1.elapsed) : Emits s1 t [] :=
  ⟨by simp [htrace], .inr ⟨by simp, helapsed⟩, by simp⟩

theorem emits_reset {s1 t : State} (htrace : t.trace = s1.trace ++ [.trst]) (helapsed : t.elapsed = 0) : Emits s1 t [.trst] :=
  ⟨htrace, .inl ⟨by simp, helapsed⟩, by simp⟩

theorem emits_handshake {s1 t : State} (htrace : t.trace = s1.trace ++ [.tx 0x43#8, .trst]) (helapsed : t.elapsed = 0) :
    Emits s1 t [.tx 0x43#8, .trst] :=
  ⟨htrace, .inl ⟨by simp, helapsed⟩, by simp⟩

theorem StepCase.emits {s1 t : State} {c : Option HostCmd} (h : StepCase s1 c t) : ∃ ev, Emits s1 t ev := by
  cases h with
  | reset | drainByte | drainEnd => exact ⟨[], emits_nothing rfl rfl⟩
  | startDl => exact ⟨_, emits_handshake (by simp [Config.handshake]) rfl⟩
  | startUl => exact ⟨_, emits_reset rfl rfl⟩
  | dlByte b rest u _ _ _ _ _ hd =>
    have hcase := handleByte_cases hd
    obtain ⟨bytes, hsent, hcodes⟩ := hcase.sent
    refine ⟨.trst :: bytes.map .tx, by simpa using trace_of_sent hsent, .inl ⟨by simp, hcase.frame.byteFrame.elapsed⟩, ?_⟩
    intro _ x hx
    have hmem : x ∈ bytes := by simpa using hx
    exact (hcodes x hmem).imp id .inl
  | ulByte b rest u _ hrole _ _ _ hd =>
    obtain ⟨bytes, hsent⟩ := uploadByte_sent hd
    exact ⟨.trst :: bytes.map .tx, by simpa using trace_of_sent hsent, .inl ⟨by simp, (uploadByte_frame hd).byteFrame.elapsed⟩,
      fun hne => absurd hrole hne⟩
  | quiet | ulTimeoutIgnored => exact ⟨[], emits_nothing (by simp [checkRetry_eq]) (by simp [checkRetry_eq])⟩
  | dlTimeout => exact ⟨_, emits_handshake (by simp [checkRetry_eq, Config.handshake]) (by simp [checkRetry_eq])⟩
  | ulTimeoutCounted => exact ⟨_, emits_reset (by simp [checkRetry_eq]) (by simp [checkRetry_eq])⟩

/-- Settles O48: every case of a step appends, and only an upload byte sends anything but the three codes. -/
theorem traceGrowsAndDownloadSendsOnlyThreeCodes : Obligations.TraceGrowsAndDownloadSendsOnlyThreeCodes := by
  intro s t h
  obtain ⟨s1, hin, hcase⟩ := step_cases h
  have he := takeInput_frame hin
  obtain ⟨ev, hev⟩ := hcase.emits
  exact ⟨ev, he.trace ▸ hev.trace, fun hrole => hev.codes (he.role ▸ hrole)⟩

/-- Settles O51: the environment's part adds the time that passed, and the step appends a reset exactly when it clears the timer. -/
theorem timerFollowsItsResets : Obligations.TimerFollowsItsResets := by
  intro s t h
  obtain ⟨s1, hin, hcase⟩ := step_cases h
  have he := takeInput_frame hin
  obtain ⟨ev, hev⟩ := hcase.emits
  exact ⟨ev, he.trace ▸ hev.trace, he.elapsed ▸ hev.timer⟩

/-- With a legal capacity an upload byte ends the upload, or `BLK` names the block whose frame was sent. -/
theorem uploadByte_result {b : Byte} {s u : State} (hcap : capLegal s.curw s.cap = true) (h : uploadByte b s = .next u) :
    u = { s with blk := s.blk + 1#8, trace := s.trace ++ [.tx 0x04#8], seq := .ended } ∨
    ∃ n, u = ({ s with blk := n } : State).sentBlock n := by
  have hframe (n : Byte) : toResult (sendBlock n { s with blk := n }) = .next (({ s with blk := n } : State).sentBlock n) :=
    congrArg toResult (sendBlock_eq (s := { s with blk := n }) hcap n)
  have hcase := uploadByte_cases b s
  rw [h] at hcase
  generalize hr : (Host.Outcome.next u : Result) = r at hcase
  cases hcase with
  | handshake => exact .inr ⟨_, Host.Outcome.next.inj (hr.trans (hframe _))⟩
  | last => exact .inl (Host.Outcome.next.inj hr)
  | next => exact .inr ⟨_, Host.Outcome.next.inj (hr.trans (hframe _))⟩
  | resend => exact .inr ⟨s.blk, Host.Outcome.next.inj (hr.trans (hframe s.blk))⟩

/-- Settles O49: of the cases of a step, an upload has its own byte and its own timeouts only. -/
theorem uploadSendsOnlyFramesAndEot : Obligations.UploadSendsOnlyFramesAndEot := by
  intro s t hs hrole h
  obtain ⟨s1, hin, hcase⟩ := step_cases h
  have he := takeInput_frame hin
  have hs1 := hs.takeInput hin
  have hbuf := he.buf (he.supply.resolve_right (by simp [hrole]))
  have hpayload (n : Byte) : s.blockPayload n = s1.blockPayload n := by
    simp only [State.blockPayload, hbuf, he.curw, he.cap]
  rw [← he.role] at hrole
  rw [← he.trace]
  simp only [hpayload]
  cases hcase with
  | reset | drainByte | drainEnd => exact ⟨[], by simp, .inl rfl⟩
  | startDl _ _ hnone | startUl _ _ hnone => exact absurd (hnone.symm.trans hrole) (by simp)
  | dlByte _ _ _ _ hdl | dlTimeout _ hdl => exact absurd (hdl.symm.trans hrole) (by simp)
  | ulByte b rest u _ _ _ _ _ hd =>
    obtain rfl | ⟨n, rfl⟩ := uploadByte_result (s := (s1.setPending rest).timerReset) (hs1.capOk (by simp [hrole])) hd
    · exact ⟨[.trst, .tx 0x04#8], by simp, .inr (.inr (.inl ⟨rfl, by simp, by simp⟩))⟩
    · have hslot : ({ (s1.setPending rest).timerReset with blk := n } : State).blockPayload n = s1.blockPayload n := rfl
      refine ⟨_, ?_, .inr (.inr (.inr rfl))⟩
      simp only [closeEnded_trace, closeEnded_blk, State.sentBlock_trace, State.sentBlock_blk, hslot]
      exact List.append_assoc ..
  | quiet | ulTimeoutIgnored => exact ⟨[], by simp [checkRetry_eq], .inl rfl⟩
  | ulTimeoutCounted => exact ⟨[.trst], by simp [checkRetry_eq], .inr (.inl rfl)⟩

/-! ## The transport, the inputs and the launch parameters -/

/-- Settles O50: a byte or a drain takes the oldest byte, everything else none. -/
theorem bytesTakenInArrivalOrder : Obligations.BytesTakenInArrivalOrder := by
  intro s t h
  obtain ⟨s1, hin, hcase⟩ := step_cases h
  rw [← (takeInput_frame hin).pending]
  cases hcase with
  | reset | startDl | startUl | drainEnd => exact .inl rfl
  | dlByte b rest u hc _ _ _ hp hd => exact .inr ⟨hc, b, by rw [hp, (handleByte_cases hd).frame.byteFrame.pending]⟩
  | ulByte b rest u hc _ _ _ hp hd => exact .inr ⟨hc, b, by rw [hp, (uploadByte_frame hd).byteFrame.pending]⟩
  | quiet | dlTimeout | ulTimeoutCounted | ulTimeoutIgnored => exact .inl (by simp [checkRetry_eq])
  | drainByte b rest hc _ _ hp => exact .inr ⟨hc, b, hp⟩

/-- Settles O52: a running session with a byte waiting polls that byte. -/
theorem byteReadOnlyWithItsTimerReset : Obligations.ByteReadOnlyWithItsTimerReset := by
  intro s t b rest hrun hcmd hp h
  obtain ⟨s1, hin, hcase⟩ := step_cases h
  have he := takeInput_frame hin
  obtain ⟨-, habort, -⟩ := hrun
  rw [← he.seq] at habort
  rw [← he.pending] at hp
  rw [← he.retry, ← he.trace]
  cases hcase with
  | reset hc | startDl _ hc | startUl _ hc => simp [hc] at hcmd
  | dlByte b' rest' u _ _ _ _ hp' hd =>
    obtain ⟨rfl, rfl⟩ : b' = b ∧ rest' = rest := by simpa [hp'] using hp
    have hcase := handleByte_cases hd
    have hf := hcase.frame.byteFrame
    obtain ⟨bytes, hsent, -⟩ := hcase.sent
    exact ⟨hf.pending, hf.retry, hf.elapsed, _, by simpa using trace_of_sent hsent⟩
  | ulByte b' rest' u _ _ _ _ hp' hd =>
    obtain ⟨rfl, rfl⟩ : b' = b ∧ rest' = rest := by simpa [hp'] using hp
    have hf := (uploadByte_frame hd).byteFrame
    obtain ⟨bytes, hsent⟩ := uploadByte_sent hd
    exact ⟨hf.pending, hf.retry, hf.elapsed, _, by simpa using trace_of_sent hsent⟩
  | quiet _ _ _ _ hnil | dlTimeout _ _ _ _ hnil | ulTimeoutCounted _ _ _ _ hnil | ulTimeoutIgnored _ _ _ _ hnil =>
    simp [hnil] at hp
  | drainByte _ _ _ _ hq | drainEnd _ _ hq => exact absurd hq habort

theorem StepCase.launch {s1 t : State} {c : Option HostCmd} (h : StepCase s1 c t) :
    t.curw = s1.curw ∧ t.ulTimeoutCounts = s1.ulTimeoutCounts ∧ t.returned = s1.returned ∧ t.inputs = s1.inputs := by
  cases h with
  | dlByte b rest u _ _ _ _ _ hd =>
    have hf := (handleByte_cases hd).frame.byteFrame
    exact ⟨hf.curw, hf.ulTimeoutCounts, hf.returned, hf.inputs⟩
  | ulByte b rest u _ _ _ _ _ hd =>
    have hf := (uploadByte_frame hd).byteFrame
    exact ⟨hf.curw, hf.ulTimeoutCounts, hf.returned, hf.inputs⟩
  | quiet | dlTimeout | ulTimeoutCounted | ulTimeoutIgnored => simp [checkRetry_eq]
  | reset | startDl | startUl | drainByte | drainEnd => exact ⟨rfl, rfl, rfl, rfl⟩

/-- Settles O53: the environment's part uses the input up, and no case of a step touches the four fields. -/
theorem launchParameterAndInputs : Obligations.LaunchParameterAndInputs := by
  intro s t h
  obtain ⟨s1, hin, hcase⟩ := step_cases h
  have he := takeInput_frame hin
  obtain ⟨hcurw, hcounts, hreturned, hinputs⟩ := hcase.launch
  exact ⟨hcurw.trans he.curw, hcounts.trans he.ulTimeoutCounts, hreturned.trans he.returned, hinputs.trans he.inputs⟩

/-- Settles O54: in `ABORT` the two cases of the drain remain. -/
theorem abortOnlyDrains : Obligations.AbortOnlyDrains := by
  intro s t hrole hq hcmd h
  obtain ⟨s1, hin, hcase⟩ := step_cases h
  have he := takeInput_frame hin
  have hs1 := (takeInput_of_noSupply (he.supply.resolve_right hrole)).symm.trans hin
  cases hcase with
  | reset hc => exact absurd hc hcmd
  | startDl _ _ hnone | startUl _ _ hnone => exact absurd (he.role ▸ hnone) hrole
  | dlByte _ _ _ _ _ hne | ulByte _ _ _ _ _ hne | quiet _ _ hne | dlTimeout _ _ hne | ulTimeoutCounted _ _ hne
  | ulTimeoutIgnored _ _ hne => exact absurd (he.seq.trans hq) hne
  | drainByte b rest _ _ _ hp =>
    obtain rfl := Except.ok.inj hs1
    exact ⟨rfl, .inl ⟨b, hp, rfl⟩⟩
  | drainEnd _ _ _ hp =>
    obtain rfl := Except.ok.inj hs1
    exact ⟨rfl, .inr ⟨hp, hp, rfl⟩⟩

end Sys2Proof.Machine
end

section
/-! O55: the retry ceiling over sixteen silent polls (43_session_timeout.md R145, R148). -/

namespace Sys2Proof.Machine

/-- The environment lets `w` milliseconds pass and does nothing else. -/
def EnvInput.silence (w : Nat) : EnvInput := { supply := none, arrivals := [], wait := w, cmd := none }

/-- What each counted timeout of a download sends. -/
def timeoutEvents : List TraceEvent := [.tx 0x43#8, .trst]

/-- The state after `k` timeouts of a download that had none, with `elapsed` on the timer and `l` the inputs to come. -/
def State.afterTimeouts (s : State) (k elapsed : Nat) (l : List EnvInput) : State :=
  { s with
    retry := BitVec.ofNat 8 k
    elapsed := elapsed
    trace := s.trace ++ (List.replicate k timeoutEvents).flatten
    inputs := l }

theorem afterTimeouts_succ_trace (s : State) (k elapsed : Nat) (l : List EnvInput) :
    (s.afterTimeouts (k + 1) elapsed l).trace = (s.afterTimeouts k elapsed l).trace ++ [.tx 0x43#8, .trst] := by
  simp [State.afterTimeouts, List.replicate_succ', timeoutEvents]

theorem takeInput_afterTimeouts (s : State) (k elapsed w : Nat) (l : List EnvInput) :
    (s.afterTimeouts k elapsed (EnvInput.silence w :: l)).takeInput = .ok (s.afterTimeouts k (elapsed + w) l) := by
  rw [takeInput_of_noSupply rfl]
  simp [State.afterTimeouts, State.nextInput, EnvInput.silence]

/-- A turn of a running download that finds the timer above 1000 ms and nothing waiting (R145). -/
theorem step_of_dlTimeout {s s1 : State} (hin : s.takeInput = .ok s1) (hcmd : s.nextInput.cmd = none) (hrun : s1.running)
    (hrole : s1.role = .dl) (hp : s1.pending = []) (ht : 1000 < s1.elapsed) :
    step s = .next { s1 with
      retry := s1.retry + 1#8
      elapsed := 0
      trace := s1.trace ++ [.tx 0x43#8, .trst]
      seq := if 15 < (s1.retry.toNat + 1) % 256 then .abort else s1.seq } := by
  obtain ⟨-, htimeout⟩ := downloadIdleResult s1 hrole hrun hp
  rw [step_of_dlIdle hin hcmd hrun hrole hp, htimeout ht]
  refine (finishPoll_eq _).trans (congrArg _ (closeEnded_of_ne ?_))
  obtain ⟨-, -, hended⟩ := hrun
  simp only
  split
  · exact SeqState.noConfusion
  · exact hended

/-- One more silent poll above 1000 ms counts one more timeout, and aborts above the ceiling. -/
theorem step_afterTimeouts {s : State} (hrole : s.role = .dl) (hrun : s.running) (hp : s.pending = []) {k w : Nat} (hk : k ≤ 15)
    (hw : 1000 < w) (elapsed : Nat) (l : List EnvInput) :
    step (s.afterTimeouts k elapsed (EnvInput.silence w :: l)) =
      .next { s.afterTimeouts (k + 1) 0 l with seq := if 15 < k + 1 then .abort else s.seq } := by
  have hstep := step_of_dlTimeout (takeInput_afterTimeouts s k elapsed w l) rfl hrun hrole hp (Nat.lt_add_left elapsed hw)
  have hretry : BitVec.ofNat 8 k + 1#8 = BitVec.ofNat 8 (k + 1) := (BitVec.ofNat_add ..).symm
  have hcount : ((BitVec.ofNat 8 k).toNat + 1) % 256 = k + 1 := by
    rw [BitVec.toNat_ofNat]
    omega
  rw [hstep, ← afterTimeouts_succ_trace]
  simp only [State.afterTimeouts, hretry, hcount]

/-- Up to the ceiling each of `k` such polls is counted, and `STATE` is kept. -/
theorem run_timeouts {s : State} {waits : List Nat} (hrole : s.role = .dl) (hrun : s.running) (hretry : s.retry = 0#8)
    (hp : s.pending = []) (hw : ∀ w ∈ waits, 1000 < w) (hinputs : s.inputs = waits.map EnvInput.silence) {k : Nat}
    (hk : k ≤ 15) (hlen : k ≤ waits.length) :
    ∃ elapsed, Host.Core.run Sys2Proof.core k s = .next (s.afterTimeouts k elapsed ((waits.drop k).map EnvInput.silence)) := by
  induction k with
  | zero => exact ⟨s.elapsed, by simp [Host.Core.run, State.afterTimeouts, ← hretry, ← hinputs]⟩
  | succ k ih =>
    obtain ⟨elapsed, hcounted⟩ := ih (by omega) (by omega)
    have hlt : k < waits.length := hlen
    have hstep := step_afterTimeouts hrole hrun hp (by omega : k ≤ 15) (hw _ (List.getElem_mem hlt)) elapsed
      ((waits.drop (k + 1)).map EnvInput.silence)
    rw [if_neg (by omega)] at hstep
    rw [List.drop_eq_getElem_cons hlt, List.map_cons] at hcounted
    exact ⟨0, (run_append hcounted).trans (run_of_step hstep)⟩

/-- Settles O55: fifteen counted polls, and the sixteenth that aborts. -/
theorem sixteenTimeoutsAbort : Obligations.SixteenTimeoutsAbort := by
  intro s waits hrole hrun hretry hp hlen hw hinputs
  constructor
  · obtain ⟨elapsed, hcounted⟩ := run_timeouts hrole hrun hretry hp hw hinputs (k := 15) (by omega) (by omega)
    have hlt : 15 < waits.length := by omega
    have hstep := step_afterTimeouts hrole hrun hp (Nat.le_refl 15) (hw _ (List.getElem_mem hlt)) elapsed
      ((waits.drop 16).map EnvInput.silence)
    rw [List.drop_eq_getElem_cons hlt, List.map_cons] at hcounted
    rw [run_append (b := 1) hcounted, run_of_step hstep]
    have hnil : waits.drop 16 = [] := List.drop_eq_nil_of_le (by omega)
    rw [hnil]
    rfl
  · intro k hk
    obtain ⟨elapsed, hrunk⟩ := run_timeouts hrole hrun hretry hp hw hinputs hk (by omega)
    refine ⟨_, hrunk, rfl, ?_⟩
    change (BitVec.ofNat 8 k).toNat = k
    rw [BitVec.toNat_ofNat]
    omega

end Sys2Proof.Machine
end

section
/-! O56, O57: a whole frame received, byte by byte, and sent back (41_receive.md R100 to R109, 20_memory.md R62). -/

namespace Sys2Proof.Machine

/-! ## A run of byte-reading steps: the environment of the first state, the registers of another -/

/-- The registers of `t` in the environment of `s` after `k` steps that each took a byte, with `more` left of what was waiting first. -/
def State.listening (s t : State) (k : Nat) (more : List Byte) : State :=
  { t with
    pending := more ++ (s.inputs.take k).flatMap (fun e => e.arrivals)
    elapsed := if k = 0 then s.elapsed else 0
    inputs := s.inputs.drop k
    trace := s.trace ++ List.replicate k .trst }

theorem listening_seq (s t : State) (k : Nat) (more : List Byte) : (s.listening t k more).seq = t.seq := rfl

/-- No coming input commands or supplies. -/
def State.unattended (s : State) : Prop := ∀ e ∈ s.inputs, e.cmd = none ∧ e.supply = none

theorem listening_zero (s : State) : s.listening s 0 s.pending = s := by
  simp [State.listening]

/-- What arrives before the next step joins what arrived before. -/
theorem arrivals_take_succ (s t : State) (k : Nat) (more : List Byte) :
    (s.inputs.take (k + 1)).flatMap (fun e => e.arrivals) =
      (s.inputs.take k).flatMap (fun e => e.arrivals) ++ (s.listening t k more).nextInput.arrivals := by
  have hnext : (s.listening t k more).nextInput = (s.inputs[k]?).getD EnvInput.quiet := by
    simp [State.nextInput, State.listening, List.headD_eq_head?_getD]
  rw [hnext, List.take_add_one, List.flatMap_append]
  cases s.inputs[k]? <;> simp

/-- One byte: the environment goes one step on, and the dispatch acts on the registers. -/
theorem step_listening {s t u : State} {k : Nat} {b : Byte} {more : List Byte} (hs : s.unattended) (hrole : t.role = .dl)
    (habort : t.seq ≠ .abort) (hended : t.seq ≠ .ended) (hb : handleByte b (s.listening t (k + 1) more) = .next u)
    (hu : u.seq ≠ .ended) : step (s.listening t k (b :: more)) = .next u := by
  obtain ⟨hcmd, hsup⟩ := nextInput_of_silent (s := s.listening t k (b :: more)) fun e he => hs e (List.mem_of_mem_drop he)
  have htaken : { s.listening t k (b :: more) with
      pending := more ++ (s.inputs.take k).flatMap (fun e => e.arrivals) ++ (s.listening t k (b :: more)).nextInput.arrivals
      elapsed := 0
      inputs := (s.listening t k (b :: more)).inputs.tail
      trace := (s.listening t k (b :: more)).trace ++ [.trst] } = s.listening t (k + 1) more := by
    rw [List.append_assoc, ← arrivals_take_succ]
    simp [State.listening, List.tail_drop, List.replicate_succ']
  calc step (s.listening t k (b :: more))
    _ = onNext (handleByte b (s.listening t (k + 1) more)) finishPoll :=
      (step_of_download_byte (rest := more ++ (s.inputs.take k).flatMap (fun e => e.arrivals)) hcmd hsup hrole habort hended rfl).trans
        (congrArg (fun x => onNext (handleByte b x) finishPoll) htaken)
    _ = .next (closeEnded u) := by rw [hb]; exact finishPoll_eq u
    _ = .next u := congrArg _ (closeEnded_of_ne hu)

theorem run_listening_succ {s t u : State} {k : Nat} {b : Byte} {more : List Byte} (hs : s.unattended)
    (hrun : Host.Core.run Sys2Proof.core k s = .next (s.listening t k (b :: more))) (hrole : t.role = .dl)
    (habort : t.seq ≠ .abort) (hended : t.seq ≠ .ended) (hb : handleByte b (s.listening t (k + 1) more) = .next u)
    (hu : u.seq ≠ .ended) : Host.Core.run Sys2Proof.core (k + 1) s = .next u :=
  (run_append hrun).trans (run_of_step (step_listening hs hrole habort hended hb hu))

/-! ## The header -/

/-- The registers once the header of block `n` is accepted with the cursor at `base`. -/
def State.inPayload (s : State) (n : Byte) (base : Nat) : State :=
  { s with cnt := 0#8, crc := 0#16, blk := n, cur := base, seq := .run }

theorem complement_sum (n : Byte) : (complement n).toNat + n.toNat = 255 := by
  have hn : n.toNat < 256 := n.isLt
  rw [complement_toNat]
  omega

/-- The complement of the number is accepted, and a duplicate's rewind ends at `base` too (41_receive.md R106). -/
theorem handleByte_complement {x : State} {n : Byte} {base : Nat} (hq : x.seq = .block2) (hblk : x.blk = n)
    (hcur : x.cur = if n = x.last then base + 128 else base) (hfits : base + 128 < 2 ^ x.curw) :
    handleByte (complement n) x = .next { x with cur := base, seq := .run } := by
  have hsum : (complement n).toNat + x.blk.toNat = 255 := hblk ▸ complement_sum n
  rw [handleByte_block2 hq]
  by_cases hd : n = x.last
  · rw [if_pos hd] at hcur
    have hrewind : cursorRewind x.curw x.cur = base := by
      rw [cursorRewind_of_le (by omega) (by omega)]
      omega
    exact (execRxBlock2_of_duplicate hsum (hblk.trans hd)).trans (by rw [hrewind])
  · rw [if_neg hd] at hcur
    exact (execRxBlock2_of_fresh hsum (hblk ▸ hd)).trans (by rw [hcur])

theorem run_header {s : State} {n : Byte} {tail : List Byte} {base : Nat} (hs : s.unattended) (hrole : s.role = .dl)
    (hq : s.seq = .await) (hp : s.pending = Config.soh :: n :: complement n :: tail)
    (hcur : s.cur = if n = s.last then base + 128 else base) (hfits : base + 128 < 2 ^ s.curw) :
    Host.Core.run Sys2Proof.core 3 s = .next (s.listening (s.inPayload n base) 3 tail) := by
  have h0 : Host.Core.run Sys2Proof.core 0 s = .next (s.listening s 0 (Config.soh :: n :: complement n :: tail)) := by
    rw [← hp, listening_zero]
    rfl
  have hsoh : handleByte Config.soh (s.listening s 1 (n :: complement n :: tail)) =
      .next (s.listening { s with cnt := 0#8, crc := 0#16, seq := .block } 1 (n :: complement n :: tail)) := by
    have hmarker : decode ⟨.dl, (s.listening s 1 (n :: complement n :: tail)).seq, .byte Config.soh⟩ = .ok .rxAwaitSoh := by
      rw [listening_seq, hq]
      rfl
    exact handleByte_of_decode hmarker
  have h1 := run_listening_succ hs h0 hrole (by simp [hq]) (by simp [hq]) hsoh SeqState.noConfusion
  have h2 := run_listening_succ hs h1 hrole SeqState.noConfusion SeqState.noConfusion
    (u := s.listening { s with cnt := 0#8, crc := 0#16, blk := n, seq := .block2 } 2 (complement n :: tail)) rfl
    SeqState.noConfusion
  exact run_listening_succ hs h2 hrole SeqState.noConfusion SeqState.noConfusion
    (handleByte_complement rfl rfl hcur hfits) SeqState.noConfusion

/-! ## The payload -/

/-- The bytes of a list written from an offset on. -/
def Memory.store (m : Memory) (a : Nat) : List Byte → Memory
  | [] => m
  | b :: q => (m.write a b).store (a + 1) q

theorem Memory.store_wf {m : Memory} (h : m.wf = true) (a : Nat) (q : List Byte) : (m.store a q).wf = true := by
  induction q generalizing m a with
  | nil => exact h
  | cons b q ih => exact ih (Memory.write_wf a b h) (a + 1)

theorem Memory.read_store_outside {m : Memory} (h : m.wf = true) {a k : Nat} {q : List Byte} (hk : k < a ∨ a + q.length ≤ k) :
    (m.store a q).read k = m.read k := by
  induction q generalizing m a with
  | nil => rfl
  | cons b q ih =>
    rw [List.length_cons] at hk
    rw [Memory.store, ih (Memory.write_wf a b h) (by omega), Memory.read_write a k b h, if_neg (by omega)]

theorem Memory.read_store_inside {m : Memory} (h : m.wf = true) {a i : Nat} {q : List Byte} (hi : i < q.length) :
    q[i]? = some ((m.store a q).read (a + i)) := by
  induction q generalizing m a i with
  | nil => simp at hi
  | cons b q ih =>
    have hwf := Memory.write_wf a b h
    cases i with
    | zero =>
      rw [Memory.store, Memory.read_store_outside hwf (by omega), Nat.add_zero, Memory.read_write a a b h, if_pos rfl]
      rfl
    | succ i =>
      have hrec := ih hwf (a := a + 1) (i := i) (by simpa using hi)
      rw [show a + 1 + i = a + (i + 1) by omega] at hrec
      rwa [Memory.store, List.getElem?_cons_succ]

/-- The registers after the payload bytes `q` (41_receive.md R107). -/
def State.stored (t : State) (q : List Byte) : State :=
  { t with
    crc := crcFold t.crc q
    buf := t.buf.store t.cur q
    cur := t.cur + q.length
    cnt := t.cnt + BitVec.ofNat 8 q.length
    seq := if t.cnt.toNat + q.length = 128 then .crc1 else .run }

theorem stored_nil {t : State} (hq : t.seq = if t.cnt.toNat = 128 then .crc1 else .run) : t.stored [] = t := by
  simp [State.stored, Memory.store, ← hq]

theorem stored_cons {t : State} (b : Byte) (q : List Byte) (hcnt : t.cnt.toNat < 128) :
    (t.stored [b]).stored q = t.stored (b :: q) := by
  have hcount : (t.cnt + 1#8).toNat = t.cnt.toNat + 1 := cntNext_toNat hcnt
  have hsum : t.cnt + 1#8 + BitVec.ofNat 8 q.length = t.cnt + BitVec.ofNat 8 (q.length + 1) := by
    rw [BitVec.add_assoc, BitVec.ofNat_add, BitVec.add_comm 1#8]
  simp [State.stored, Memory.store, hcount, hsum, Nat.add_assoc, Nat.add_comm 1]

/-- One payload byte inside the buffer. -/
theorem handleByte_stored {s t : State} {k : Nat} {b : Byte} {more : List Byte} (hq : t.seq = .run) (hcnt : t.cnt.toNat < 128)
    (hcap : capLegal t.curw t.cap = true) (hcur : t.cur < t.cap) :
    handleByte b (s.listening t k more) = .next (s.listening (t.stored [b]) k more) := by
  obtain ⟨-, -, hfits⟩ := capLegal_iff.1 hcap
  have hnext : cursorNext t.curw t.cur = t.cur + 1 := cursorNext_of_lt (by omega)
  have hcount : (t.cnt + 1#8).toNat = t.cnt.toNat + 1 := cntNext_toNat hcnt
  rw [handleByte_run (s := s.listening t k more) hq, execRxRun_of_lt (s := s.listening t k more) hcur]
  simp [State.listening, State.stored, Memory.store, hnext, payloadComplete_iff, hcount, hq]

theorem run_payload {s t : State} {k : Nat} {q tail : List Byte} (hs : s.unattended)
    (hrun : Host.Core.run Sys2Proof.core k s = .next (s.listening t k (q ++ tail))) (hrole : t.role = .dl)
    (hq : t.seq = if t.cnt.toNat = 128 then .crc1 else .run) (hcap : capLegal t.curw t.cap = true)
    (hcnt : t.cnt.toNat + q.length ≤ 128) (hcur : t.cur + q.length ≤ t.cap) :
    Host.Core.run Sys2Proof.core (k + q.length) s = .next (s.listening (t.stored q) (k + q.length) tail) := by
  induction q generalizing t k with
  | nil => simpa [stored_nil hq] using hrun
  | cons b q ih =>
    rw [List.length_cons] at hcnt hcur
    have hlt : t.cnt.toNat < 128 := by omega
    have hrunning : t.seq = .run := by rw [hq, if_neg (by omega)]
    have hcount : (t.cnt + 1#8).toNat = t.cnt.toNat + 1 := cntNext_toNat hlt
    have hstep := run_listening_succ hs hrun hrole (by simp [hrunning]) (by simp [hrunning])
      (handleByte_stored hrunning hlt hcap (by omega)) (by simp [State.listening, State.stored]; split <;> simp)
    have hrest := ih hstep hrole (by simp [State.stored, hcount]) hcap (by simp [State.stored, hcount]; omega)
      (by simp [State.stored]; omega)
    rwa [stored_cons b q hlt, Nat.add_assoc, Nat.add_comm 1] at hrest

/-! ## The trailer, and the whole frame -/

/-- The two octets of the trailer make up the whole received CRC, whatever `RXCRC` held (30_encoding.md R73). -/
theorem withOctets_eq (r c : Word16) : withLowOctet (withHighOctet r (highOctet c)) (lowOctet c) = c := by
  rw [withLowOctet, withHighOctet, highOctet_joinOctets, joinOctets_high_low]

theorem run_crcHigh {s t : State} {k : Nat} {c : Word16} {tail : List Byte} (hs : s.unattended)
    (hrun : Host.Core.run Sys2Proof.core k s = .next (s.listening t k (highOctet c :: tail))) (hrole : t.role = .dl)
    (hq : t.seq = .crc1) :
    Host.Core.run Sys2Proof.core (k + 1) s =
      .next (s.listening { t with rxcrc := withHighOctet t.rxcrc (highOctet c), seq := .crc2 } (k + 1) tail) := by
  have hhigh : handleByte (highOctet c) (s.listening t (k + 1) tail) = execRxCrc1 (highOctet c) (s.listening t (k + 1) tail) :=
    handleByte_crc1 (s := s.listening t (k + 1) tail) hq _
  exact run_listening_succ hs hrun hrole (by simp [hq]) (by simp [hq]) hhigh SeqState.noConfusion

/-- The registers before the last byte of a frame: number `n` and payload `p` taken in with the cursor at `base`, and the high octet of
the CRC field `c`. -/
def State.comparing (s : State) (n : Byte) (p : List Byte) (c : Word16) (base : Nat) : State :=
  { s with
    seq := .crc2, blk := n, cnt := 128#8, crc := crcOf p, rxcrc := withHighOctet s.rxcrc (highOctet c)
    buf := s.buf.store base p, cur := base + 128 }

theorem stored_inPayload {s : State} {n : Byte} {p : List Byte} (c : Word16) {base : Nat} (hp : p.length = 128) :
    { (s.inPayload n base).stored p with rxcrc := withHighOctet s.rxcrc (highOctet c), seq := .crc2 } = s.comparing n p c base := by
  simp [State.stored, State.inPayload, State.comparing, hp, crcOf, Config.crcInit]

/-- The registers after the frame: a matching CRC field commits the number and keeps the cursor behind the payload. -/
def State.frameTaken (s : State) (n : Byte) (p : List Byte) (c : Word16) (base : Nat) : State :=
  { s with
    seq := .await, blk := n, cnt := 128#8, crc := crcOf p, rxcrc := c, buf := s.buf.store base p
    cur := if c = crcOf p then base + 128 else base
    last := if c = crcOf p then n else s.last }

/-- The answer to a frame (41_receive.md R109). -/
def frameAnswer (p : List Byte) (c : Word16) : Byte := if c = crcOf p then 0x06#8 else 0x15#8

/-- The low octet completes the received CRC, and the compare commits or rewinds to `base`. -/
theorem handleByte_crcLow {s : State} {k : Nat} {n : Byte} {p more : List Byte} {c : Word16} {base : Nat}
    (hfits : base + 128 < 2 ^ s.curw) :
    handleByte (lowOctet c) (s.listening (s.comparing n p c base) k more) =
      .next ((s.listening (s.frameTaken n p c base) k more).putByte (frameAnswer p c)) := by
  have hfield := withOctets_eq s.rxcrc c
  rw [handleByte_crc2 rfl]
  by_cases hm : c = crcOf p
  · rw [execRxCrc2_of_match (s := s.listening (s.comparing n p c base) k more) (hfield.trans hm)]
    simp only [State.listening, State.comparing, State.frameTaken, frameAnswer, State.putByte, State.setTrace, hfield, if_pos hm]
  · have hrewind : cursorRewind s.curw (base + 128) = base := by
      rw [cursorRewind_of_le (Nat.le_add_left ..) hfits, Nat.add_sub_cancel]
    rw [execRxCrc2_of_mismatch (s := s.listening (s.comparing n p c base) k more) (fun h => hm (hfield.symm.trans h))]
    simp only [State.listening, State.comparing, State.frameTaken, frameAnswer, State.putByte, State.setTrace, hfield, hrewind,
      if_neg hm]

/-- A whole frame, as one record: 133 bytes taken, the payload stored from `base` on, and one byte sent. -/
theorem run_frame {s : State} {n : Byte} {p rest : List Byte} {c : Word16} {base : Nat} (hs : s.unattended) (hrole : s.role = .dl)
    (hq : s.seq = .await) (hcap : capLegal s.curw s.cap = true) (hlen : p.length = 128) (hp : s.pending = frameBytes n p c ++ rest)
    (hcur : s.cur = if n = s.last then base + 128 else base) (hroom : base + 128 ≤ s.cap) :
    Host.Core.run Sys2Proof.core 133 s =
      .next ((s.listening (s.frameTaken n p c base) 133 rest).putByte (frameAnswer p c)) := by
  obtain ⟨-, -, hlegal⟩ := capLegal_iff.1 hcap
  have hfits : base + 128 < 2 ^ s.curw := by omega
  have hbytes : s.pending = Config.soh :: n :: complement n :: (p ++ highOctet c :: lowOctet c :: rest) := by
    simp [hp, frameBytes]
  have hheader := run_header hs hrole hq hbytes hcur hfits
  have hpayload := run_payload (t := s.inPayload n base) hs hheader hrole rfl hcap (by simp [State.inPayload, hlen])
    (by rw [hlen]; exact hroom)
  rw [hlen] at hpayload
  have hhigh := run_crcHigh hs hpayload hrole (by simp [State.stored, State.inPayload, hlen])
  rw [show ((s.inPayload n base).stored p).rxcrc = s.rxcrc from rfl, stored_inPayload c hlen] at hhigh
  exact run_listening_succ hs hhigh hrole SeqState.noConfusion SeqState.noConfusion (handleByte_crcLow hfits) SeqState.noConfusion

/-- Settles O56: the record of a received frame, read field by field. -/
theorem frameReceivedCommitsOrRejects : Obligations.FrameReceivedCommitsOrRejects := by
  intro s n p rest c base hwf hrole hq hcap hlen hp hs hcur hroom
  refine ⟨_, run_frame hs hrole hq hcap hlen hp hcur hroom, hrole, rfl, rfl, rfl, rfl, rfl, rfl, rfl, rfl, rfl, rfl, rfl, rfl, rfl,
    Memory.store_wf hwf base p, fun i hi => ?inside, fun k hk => ?outside, rfl, rfl, rfl⟩
  case inside => exact Memory.read_store_inside hwf (hlen ▸ hi)
  case outside => exact Memory.read_store_outside hwf (hlen ▸ hk)

/-! ## Sending it back -/

theorem Memory.slice_store {m : Memory} (h : m.wf = true) (a : Nat) (q : List Byte) : (m.store a q).slice a q.length = q := by
  apply List.ext_getElem?
  intro i
  by_cases hi : i < q.length
  · rw [Memory.read_store_inside h (a := a) hi]
    simp [Memory.slice, hi]
  · rw [List.getElem?_eq_none (by simpa using hi), List.getElem?_eq_none (by simpa using hi)]

/-- Settles O57: what was stored from `base` on is the payload of the block whose slot starts at `base`. -/
theorem roundTripThroughBuffer : Obligations.RoundTripThroughBuffer := by
  intro s n p rest base hwf hrole hq hcap hlen hp hs hcur hroom
  refine ⟨_, run_frame hs hrole hq hcap hlen hp hcur hroom, fun u hbuf hucap hbase => ?_⟩
  have hpayload : u.blockPayload n = p := by
    rw [State.blockPayload, hbase, hbuf, ← hlen]
    exact Memory.slice_store hwf base p
  rw [exec_txSendBlock hucap, State.sentBlock, hpayload]

end Sys2Proof.Machine
end
